-- ==== Sys2Proof/Word.lean ====
section
/-! DEFINITION. The widths of the hardware: the 64-bit word, the byte, the 72-bit command word (00_scope.md R6, R9, R12). -/

namespace Sys2Proof

/-- A word of the word array and of every 64-bit register (00_scope.md R6, `WORD_W` = 64). -/
abbrev Word := BitVec 64

/-- A byte (00_scope.md R12). -/
abbrev Byte := BitVec 8

/-- A command word `cmd[71:0]` (00_scope.md R9, `CW_W` = 72; 30_encoding.md R75). -/
abbrev CmdWord := BitVec 72

/-- Storage for `N_MAX` = 40 words (00_scope.md R6; 10_state.md R21). -/
abbrev Words := Vector Word 40

end Sys2Proof
end

