-- ==== Sys2Proof/Machine/Bits.lean ====
section
/-! DEFINITION. Rotations (00_scope.md R11), lanes and byte strings, big-endian (00_scope.md R12; 20_memory.md R58, R59). -/

namespace Sys2Proof.Machine

/-- `rotl(x, n)` of 00_scope.md R11: left by `n mod 64`, a rotation by 0 being the identity. -/
def rotl (x : Word) (n : Nat) : Word :=
  let k := n % 64
  if k = 0 then x else (x <<< k) ||| (x >>> (64 - k))

/-- `rotr(x, n)` of 00_scope.md R11: right by `n mod 64`, a rotation by 0 being the identity. -/
def rotr (x : Word) (n : Nat) : Word :=
  let k := n % 64
  if k = 0 then x else (x >>> k) ||| (x <<< (64 - k))

/-- `BE64(x)[k]` = `x[63-8k : 56-8k]`, the byte of lane `k`; lane 0 is the most significant (00_scope.md R12). -/
def laneByte (x : Word) (k : Nat) : Byte := x.extractLsb' (56 - 8 * k) 8

/-- A byte zero-extended and put in lane `k` of a word: `zext_64(b) << (8 * (7 - k))` (44_command_absorb.md R151). -/
def placeByte (b : Byte) (k : Nat) : Word := b.setWidth 64 <<< (8 * (7 - k))

/-- `BE64(x)`: the 8 bytes of a word, most significant first (00_scope.md R12). -/
def be64 (x : Word) : List Byte := (List.range 8).map (laneByte x)

/-- `BE128(x)`: the 16 bytes of a 128-bit value, most significant first (00_scope.md R12). -/
def be128 (x : BitVec 128) : List Byte := (List.range 16).map fun k => x.extractLsb' (120 - 8 * k) 8

/-- The bytes of a list placed in lanes `k`, `k+1`, … of a word, the other lanes 0. -/
def packLanes : Nat → List Byte → Word
  | _, [] => 0
  | k, b :: bs => placeByte b k ||| packLanes (k + 1) bs

/-- `val(C)` of 44_command_absorb.md R152, and `U64BE` of 00_scope.md R12 on 8 bytes: at most 8 bytes as a word, first byte
most significant, missing low bytes 0. -/
def leftAligned (bs : List Byte) : Word := packLanes 0 bs

end Sys2Proof.Machine
end

