-- ==== Sys2Proof/Syntax.lean ====
section
/-! DEFINITION. The syntax: the three digest sizes, the four commands of 30_encoding.md R78, the fault causes of
60_exceptions.md R201, and what decoding a word can answer (30_encoding.md R83). -/

namespace Sys2Proof

/-- The three digest sizes of 00_scope.md R6. The fourth size code `11` is never a size (10_state.md R26; log 12). -/
inductive DigestSize where
  | d128
  | d256
  | d512
  deriving DecidableEq, Repr

/-- The commands, one constructor for each row of spec/opcode_table.json, with the operands of 30_encoding.md R83. -/
inductive Instr where
  /-- INIT (43_commands_init_reset.md R136): size, whether a key is given, and the key operand. -/
  | init (ds : DigestSize) (keyEn : Bool) (key : Word)
  /-- ABSORB (44_command_absorb.md R150): the bytes `b[0..n-1]`, `n` being the length of the list. -/
  | absorb (bytes : List Byte)
  /-- FINALIZE (45_command_finalize.md R165); no operand. -/
  | finalize
  /-- RESET (43_commands_init_reset.md R137); no operand. -/
  | reset
  deriving DecidableEq, Repr

/-- The cause codes of 60_exceptions.md R201; codes 5 to 7 are never produced (log 12). -/
inductive Cause where
  /-- Code 0: no fault. -/
  | none
  /-- Code 1: `cmd[71:68]` is not 1, 2, 3 or 4. -/
  | illegalOpcode
  /-- Code 2: a legal opcode with an illegal field. -/
  | illegalField
  /-- Code 3: ABSORB, FINALIZE or RESET while `CFG_VALID` = 0. -/
  | notConfigured
  /-- Code 4: ABSORB while `STATE` = `FINALIZED`. -/
  | absorbAfterFinalize
  deriving DecidableEq, Repr

/-- What decoding answers (30_encoding.md R83): a command with its operands, or `Illegal(cause)`. -/
inductive Decoded where
  /-- A legal command. -/
  | legal (i : Instr)
  /-- An illegal word, with its cause (1 or 2). -/
  | illegal (c : Cause)
  deriving DecidableEq, Repr

end Sys2Proof
end

