-- ==== Sys2Proof/Machine/Params.lean ====
section
/-! DEFINITION. The parameters this hardware takes, each a named constant: the size table (00_scope.md R6), the literals
(00_scope.md R7; 93_implementation_defined.md U1, log 17) and the variant choices (00_scope.md R8). -/

namespace Sys2Proof.Machine

/-- N(ds), the number of words in use (00_scope.md R6). -/
def wordCount : DigestSize → Nat
  | .d128 => 25
  | .d256 => 32
  | .d512 => 40

/-- R(ds), the number of main rounds (00_scope.md R6; not doubled, R8 `HARDENED`). -/
def roundCount : DigestSize → Nat
  | .d128 => 56
  | .d256 => 64
  | .d512 => 80

/-- OUTLEN(ds), the digest length in bytes (00_scope.md R6). -/
def outLen : DigestSize → Nat
  | .d128 => 16
  | .d256 => 32
  | .d512 => 64

/-- `HASH_LENGTH(ds)` = OUTLEN(ds), the last addend of every round constant (00_scope.md R8; 41_constant_generator.md R112). -/
def hashLength (ds : DigestSize) : Nat := outLen ds

/-- `PRIME` (00_scope.md R7). -/
def prime : Word := 0x9E3779B97F4A7C15

/-- `NOISE_PRIME`: the prime the noise function takes is `PRIME` (00_scope.md R8; 40_noise_generator.md R105). -/
def noisePrime : Word := prime

/-- `ROUND_BASE` (00_scope.md R7). -/
def roundBase : Word := 0xABCDEF1234567890

/-- `EXTRA_PRIME` (00_scope.md R7). -/
def extraPrime : Word := 0x7FFFFFFFFFFFFFFF

/-- The noise per-byte rotation (00_scope.md R7). -/
def noiseByteRot : Nat := 7

/-- The rotation of the noise result in the round constant (00_scope.md R7). -/
def noiseResultRot : Nat := 8

/-- The left rotation of the round factor (00_scope.md R7). -/
def factorRotLeft : Nat := 32

/-- The right rotation of the round factor (00_scope.md R7). -/
def factorRotRight : Nat := 16

/-- The modulus of the rotation of `PRIME`, and of the noise's last rotation (00_scope.md R7; 40_noise_generator.md R101). -/
def primeRotMod : Nat := 64

/-- The modulus of the rotation of `EXTRA_PRIME` (00_scope.md R7). -/
def extraPrimeRotMod : Nat := 32

/-- The first left rotation of the round (00_scope.md R7; 42_arx_round_engine.md R121). -/
def arxRotSum : Nat := 29

/-- The right rotation of the fourth neighbour (00_scope.md R7; 42_arx_round_engine.md R121). -/
def arxRotNeighbour : Nat := 17

/-- The last left rotation of the round (00_scope.md R7; 42_arx_round_engine.md R121). -/
def arxRotTotal : Nat := 23

/-- The padding byte (00_scope.md R7). -/
def padByte : Byte := 0x80

/-- The number `0x80` of the length mix (45_command_finalize.md R169). -/
def lengthMixConst : Word := 0x80

/-- `EXTRA_ROUNDS` (00_scope.md R8). -/
def extraRoundCount : Nat := 4

/-- `FIN_ROUND_BASE(ds)`: the extra rounds have indices R(ds), R(ds)+1, … (00_scope.md R8). -/
def finRoundBase (ds : DigestSize) : Nat := roundCount ds

/-- `IV(ds)[i]`: 0 for every size and index (00_scope.md R8; the spec's open parameter D2 at the value taken, log 13). -/
def iv (_ds : DigestSize) (_i : Nat) : Word := 0

end Sys2Proof.Machine
end

