-- ==== Sys2Proof/Machine/Noise.lean ====
section
/-! DEFINITION. noise_generator: the noise function and its two halves (40_noise_generator.md). -/

namespace Sys2Proof.Machine

/-- `NoiseStep(acc, byte, index)` (40_noise_generator.md R102); the multiplier is `(index + 1) mod 2^64`. -/
def noiseStep (acc : Word) (b : Byte) (index : Nat) : Word :=
  rotl (acc + b.setWidth 64 * BitVec.ofNat 64 (index + 1)) noiseByteRot

/-- The byte loop over the bytes at indices `i`, `i+1`, … (40_noise_generator.md R101, R102). -/
def noiseLoop : Nat → List Byte → Word → Word
  | _, [], acc => acc
  | i, b :: bs, acc => noiseLoop (i + 1) bs (noiseStep acc b i)

/-- `NoiseAcc(input, seed)` (40_noise_generator.md R102). -/
def noiseAcc (input : List Byte) (seed : Word) : Word := noiseLoop 0 input seed

/-- `NoisePost(acc, round)` (40_noise_generator.md R102). -/
def noisePost (acc : Word) (round : Nat) : Word := rotl (acc ^^^ BitVec.ofNat 64 round) (round % primeRotMod)

/-- `Noise(input, round, prime, key)` (40_noise_generator.md R101): the accumulator starts at the key if one is present,
else at the prime. -/
def noise (input : List Byte) (round : Nat) (prime : Word) (key : Option Word) : Word :=
  let acc := noiseLoop 0 input (match key with | some k => k | none => prime)
  let acc := acc ^^^ BitVec.ofNat 64 round
  rotl acc (round % primeRotMod)

end Sys2Proof.Machine
end

