-- ==== Sys2Proof/Config.lean ====
section
/-! DEFINITION. What an implementation fixes and the spec leaves open: constants with no body, so that nothing can be
proved of their values. The parameters the spec gives a value to are named constants in Machine/Params.lean. -/

namespace Sys2Proof.Config

/-- The contents of `W[i]` after a hardware reset: unspecified (10_state.md R38; 93_implementation_defined.md U7).
A free value: `draw` counts the resets, `i` is the index (log 7). -/
opaque unspecifiedW (draw i : Nat) : Word

/-- The contents of `NXT[i]` after a hardware reset: unspecified (10_state.md R38; log 7). -/
opaque unspecifiedNxt (draw i : Nat) : Word

/-- The contents of `ROUND` after a hardware reset: unspecified (10_state.md R38; log 7). -/
opaque unspecifiedRound (draw : Nat) : BitVec 8

/-- The contents of `PHASE` after a hardware reset: unspecified (10_state.md R38; log 7). -/
opaque unspecifiedPhase (draw : Nat) : BitVec 3

/-- The contents of `PT` after a hardware reset: unspecified (10_state.md R38; log 7). -/
opaque unspecifiedPt (draw : Nat) : BitVec 192

/-- The contents of `TACC` after a hardware reset: unspecified (10_state.md R38; log 7). -/
opaque unspecifiedTacc (draw : Nat) : Word

/-- Whether `W <- NXT` at the end of a round swaps the two buffers (true) or copies (false); 42_arx_round_engine.md R122
allows both and calls them indistinguishable (log 9). -/
opaque buffersSwap : Bool

end Sys2Proof.Config
end

