-- ==== Sys2Proof/Machine/State.lean ====
section
/-! DEFINITION. The state of the core as plain data: the architectural registers (10_state.md R20), the microarchitectural
registers (10_state.md R36), the command in flight (20_memory.md R53), and the model's own fields (logs 1, 3, 8). -/

namespace Sys2Proof.Machine

/-- The five legal values of `STATE` (10_state.md R24; the other codes are never taken, log 12). -/
inductive FsmState where
  /-- `000`: after hardware reset, no digest size chosen. -/
  | unconf
  /-- `001`: configured, nothing absorbed. -/
  | fresh
  /-- `010`: at least one ABSORB accepted since INIT or RESET. -/
  | absorbing
  /-- `011`: FINALIZE done. -/
  | finalized
  /-- `100`: a command was refused. -/
  | fault
  deriving DecidableEq, Repr

/-- What the host drives in the cycle before one rising edge (20_memory.md R50, R52; log 1). -/
structure PortIn where
  /-- `rst`, synchronous, active high. -/
  rst : Bool
  /-- `cmd_valid`. -/
  cmdValid : Bool
  /-- `cmd[71:0]`. -/
  cmd : CmdWord
  deriving DecidableEq, Repr

/-- A command accepted and not yet completed (20_memory.md R53): its word, and how many edges pass before the completing
edge. -/
structure InFlight where
  /-- The accepted command word. -/
  word : CmdWord
  /-- The edges still to pass before the completing edge. -/
  left : Nat
  deriving DecidableEq, Repr

/-- One entry of the open parameter `LAT(op, DS, STATE)` (92_eei_decisions.md D26; 70_reset_and_hazards.md R243; log 3). -/
structure LatEntry where
  /-- The opcode field of the command. -/
  op : BitVec 4
  /-- The digest size register. -/
  ds : DigestSize
  /-- The state the command is accepted in. -/
  fsm : FsmState
  /-- The further cycles the command takes. -/
  cycles : Nat
  deriving DecidableEq, Repr

/-- The whole state. The first thirteen fields are 10_state.md R20's table, the next six 10_state.md R36's, the last three
the model's own. -/
structure State where
  /-- `W[0..39]` (10_state.md R21). -/
  w : Words
  /-- `STATE` (10_state.md R24). -/
  fsm : FsmState
  /-- `CFG_VALID` (10_state.md R26). -/
  cfgValid : Bool
  /-- `DS` (10_state.md R26). -/
  ds : DigestSize
  /-- `KEY_EN` (10_state.md R27). -/
  keyEn : Bool
  /-- `KEY` (10_state.md R27). -/
  key : Word
  /-- `TOTAL_LEN` (10_state.md R28). -/
  totalLen : BitVec 128
  /-- `WIDX` (10_state.md R29). -/
  widx : BitVec 6
  /-- `TAIL` (10_state.md R30). -/
  tail : Word
  /-- `NACC` (10_state.md R31). -/
  nacc : Word
  /-- `DIGEST` (10_state.md R32). -/
  digest : BitVec 512
  /-- `DIGEST_VALID` (10_state.md R32). -/
  digestValid : Bool
  /-- `FAULT_CAUSE` (10_state.md R33). -/
  faultCause : Cause
  /-- `NXT[0..39]`, the second buffer of the round engine (10_state.md R36). -/
  nxt : Words
  /-- `ROUND` (10_state.md R36). -/
  round : BitVec 8
  /-- `PHASE` (10_state.md R36; codes 45_command_finalize.md R179). -/
  phase : BitVec 3
  /-- `PT`, the padded tail (10_state.md R36). -/
  pt : BitVec 192
  /-- `TACC` (10_state.md R36). -/
  tacc : Word
  /-- The command in flight; `BUSY` = 1 exactly when there is one (20_memory.md R53; 10_state.md R36). -/
  inFlight : Option InFlight
  /-- MODEL: what the host drives at the coming edges, oldest first; past its end the host is idle (log 1). -/
  inputs : List PortIn
  /-- MODEL: the open latency parameter as a table; a missing entry is 0 (log 3). -/
  lat : List LatEntry
  /-- MODEL: how many times unspecified contents have been drawn (log 8). -/
  draws : Nat
  deriving DecidableEq, Repr

/-- The state after hardware reset (10_state.md R38, 70_reset_and_hazards.md R230). `W` and the microarchitectural
registers are unspecified there and hold 0 here (DESIGN CHOICE, logs 5, 6); the model's own fields are empty (logs 1, 3, 8). -/
def State.reset : State where
  w := Vector.replicate 40 0
  fsm := .unconf
  cfgValid := false
  ds := .d128
  keyEn := false
  key := 0
  totalLen := 0
  widx := 0
  tail := 0
  nacc := 0
  digest := 0
  digestValid := false
  faultCause := .none
  nxt := Vector.replicate 40 0
  round := 0
  phase := 0
  pt := 0
  tacc := 0
  inFlight := none
  inputs := []
  lat := []
  draws := 0

/-- The reasons a step can stop with a fault: none. The hardware's own fault is a state it goes on from
(60_exceptions.md R200 to R206), and no encoding or state has undefined behaviour (log 18). -/
inductive Fault where
  deriving DecidableEq, Repr

/-- The reasons a step can be refused. -/
inductive Refusal where
  /-- An instruction of the opcode table without a meaning yet, raised by its arm of `exec` alone; safe. No arm raises it:
  all four commands have their meaning. -/
  | notModelled (mnemonic : String)
  deriving DecidableEq, Repr

end Sys2Proof.Machine
end

