-- ==== Sys2Proof/Machine/Operands.lean ====
section
/-! DEFINITION. The values derived from the configuration that every command rule uses by name (10_state.md R35). The operand
fields of a command word are assembled in Decode.lean (30_encoding.md R79 to R82). -/

namespace Sys2Proof.Machine

/-- `N` = N(DS) (10_state.md R35). -/
def State.wordsInUse (s : State) : Nat := wordCount s.ds

/-- `R` = R(DS) (10_state.md R35). -/
def State.mainRoundCount (s : State) : Nat := roundCount s.ds

/-- `OUTLEN` = OUTLEN(DS) (10_state.md R35). -/
def State.digestLength (s : State) : Nat := outLen s.ds

/-- The seed of the noise accumulators for an optional key: the key if one is given, else the prime (10_state.md R35;
40_noise_generator.md R101). A key of value 0 is a key (10_state.md R27). -/
def seedOf (keyEn : Bool) (key : Word) : Word := if keyEn then key else noisePrime

/-- `SEED` (10_state.md R35). -/
def State.seed (s : State) : Word := seedOf s.keyEn s.key

end Sys2Proof.Machine
end

