-- ==== Sys2Proof/Machine/Ops.lean ====
section
/-! DEFINITION. The shared operations: reading and writing the word array, taking a fault and refusing an illegal word,
`EnterFresh`, and hardware reset. -/

namespace Sys2Proof.Machine

/-- Read of `W[i]` (00_scope.md R13). No rule reads an index of 40 or more (10_state.md R21); such a read gives 0 (log 14). -/
def getWord (w : Words) (i : Nat) : Word := if h : i < 40 then w[i] else 0

/-- Write of `W[i]` (00_scope.md R13). No rule writes an index of 40 or more; such a write does nothing (log 14). -/
def setWord (w : Words) (i : Nat) (v : Word) : Words := w.setIfInBounds i v

/-- `W[i] <- W[i] ^ v`. -/
def xorWord (w : Words) (i : Nat) (v : Word) : Words := setWord w i (getWord w i ^^^ v)

/-- A word array given index by index. -/
def buildWords (f : Nat → Word) : Words := Vector.ofFn fun i => f i.val

/-- The array whose first `n` words are `f 0 … f (n-1)` and whose other words are those of `w`: how every rule writes
`W[0..N-1]` and leaves `W[i]`, `i ≥ N` (10_state.md R21). -/
def fillWords (n : Nat) (f : Nat → Word) (w : Words) : Words := buildWords fun i => if i < n then f i else getWord w i

/-- Fault entry, `raise Fault(cause)` (60_exceptions.md R204): the one shared operation of taking the hardware's only
exception. Nothing is saved and control goes nowhere. -/
def raiseFault (cause : Cause) (s : State) : State :=
  { s with faultCause := cause, fsm := .fault, digest := 0, digestValid := false }

/-- What an accepted illegal word does: the fault entry, or nothing in `FAULT` (30_encoding.md R84; 60_exceptions.md R202,
R205). -/
def refuseIllegal (cause : Cause) (s : State) : State :=
  if s.fsm = .fault then s else raiseFault cause s

/-- `EnterFresh()` (43_commands_init_reset.md R135): the common end of INIT and RESET, and so the only way out of `FAULT`
that a command has (60_exceptions.md R206). -/
def enterFresh (s : State) : State :=
  { s with
    w := fillWords s.wordsInUse (iv s.ds) s.w
    totalLen := 0
    widx := 0
    tail := 0
    nacc := s.seed
    digest := 0
    digestValid := false
    faultCause := .none
    fsm := .fresh }

/-- Hardware reset, an edge with `rst` = 1 (70_reset_and_hazards.md R230; 10_state.md R38): a command in flight is
abandoned, the registers with a reset value take it, and the unspecified ones take free values (log 7). -/
def hardwareReset (s : State) : State :=
  { s with
    w := buildWords (Config.unspecifiedW s.draws)
    fsm := .unconf
    cfgValid := false
    ds := .d128
    keyEn := false
    key := 0
    totalLen := 0
    widx := 0
    tail := 0
    nacc := 0
    digest := 0
    digestValid := false
    faultCause := .none
    nxt := buildWords (Config.unspecifiedNxt s.draws)
    round := Config.unspecifiedRound s.draws
    phase := Config.unspecifiedPhase s.draws
    pt := Config.unspecifiedPt s.draws
    tacc := Config.unspecifiedTacc s.draws
    inFlight := none
    draws := s.draws + 1 }

end Sys2Proof.Machine
end

