-- ==== Sys2Proof/Machine/Absorb.lean ====
section
/-! DEFINITION. The command ABSORB (44_command_absorb.md). -/

namespace Sys2Proof.Machine

/-- The lane of the next message byte, `TOTAL_LEN mod 8` (44_command_absorb.md R151). -/
def State.lane (s : State) : Nat := s.totalLen.toNat % 8

/-- `(WIDX + 1) mod N` (44_command_absorb.md R151). -/
def nextWidx (n : Nat) (widx : BitVec 6) : BitVec 6 := BitVec.ofNat 6 ((widx.toNat + 1) % n)

/-- `AbsorbByte(b)` (44_command_absorb.md R151). -/
def absorbByte (s : State) (b : Byte) : State :=
  let v := placeByte b s.lane
  { s with
    w := xorWord s.w s.widx.toNat v
    nacc := noiseStep s.nacc b s.totalLen.toNat
    tail := if s.lane = 7 then 0 else s.tail ||| v
    widx := if s.lane = 7 then nextWidx s.wordsInUse s.widx else s.widx
    totalLen := s.totalLen + 1 }

/-- The bytes of one command, in order (44_command_absorb.md R150). -/
def absorbAll (bytes : List Byte) (s : State) : State := bytes.foldl absorbByte s

/-- `STATE <- ABSORBING` (44_command_absorb.md R150). -/
def enterAbsorbing (s : State) : State := { s with fsm := .absorbing }

/-- ABSORB (44_command_absorb.md R150): the checks in the rule's order, then the bytes. It runs no round (R157). -/
def execAbsorb (bytes : List Byte) (s : State) : Host.Outcome State Fault Refusal :=
  if s.fsm = .fault then .next s
  else if s.cfgValid = false then .next (raiseFault .notConfigured s)
  else if s.fsm = .finalized then .next (raiseFault .absorbAfterFinalize s)
  else .next (enterAbsorbing (absorbAll bytes s))

end Sys2Proof.Machine
end

