-- ==== Sys2Proof/Machine/ArxRound.lean ====
section
/-! DEFINITION. arx_round_engine: one round and a sequence of rounds as pure functions of the word array
(42_arx_round_engine.md). -/

namespace Sys2Proof.Machine

/-- `new[i]` from the frozen previous state `old` of `n` words (42_arx_round_engine.md R121, R123). -/
def arxWord (n : Nat) (old : Words) (c : Word) (i : Nat) : Word :=
  let t := rotl (getWord old i + c + getWord old ((i + 3) % n)) arxRotSum
    + (getWord old ((i + 1) % n) &&& getWord old ((i + 2) % n))
    + rotr (getWord old ((i + 4) % n)) arxRotNeighbour
  rotl t arxRotTotal

/-- `Round(old, c)` on the first `n` words (42_arx_round_engine.md R120 to R122): every new word is computed from `old`. No
S-box (R125). -/
def arxRound (n : Nat) (old : Words) (c : Word) : Words := fillWords n (arxWord n old c) old

/-- `Rounds(S, [c0, c1, …])`: the left fold of `Round` over the constants (42_arx_round_engine.md R126). -/
def arxRounds (n : Nat) (old : Words) (cs : List Word) : Words := cs.foldl (arxRound n) old

end Sys2Proof.Machine
end

