-- ==== Sys2Proof/Machine/RoundConstant.lean ====
section
/-! DEFINITION. constant_generator: the round constant (41_constant_generator.md). -/

namespace Sys2Proof.Machine

/-- The round constant from its noise value (41_constant_generator.md R111). -/
def combineConstant (round : Nat) (noiseValue : Word) (hl : Nat) : Word :=
  let rf := BitVec.ofNat 64 round + roundBase
  let rp := rotl prime (round % primeRotMod)
  let rfl := rotl rf factorRotLeft
  let rfr := rotr rf factorRotRight
  let ep := rotl extraPrime (round % extraPrimeRotMod)
  let nz := rotl noiseValue noiseResultRot
  rp * rfl + rfr + ep + nz + BitVec.ofNat 64 hl

/-- `RoundConstant(round, input, hash_length, key)` (41_constant_generator.md R111). -/
def roundConstant (round : Nat) (input : List Byte) (hl : Nat) (key : Option Word) : Word :=
  combineConstant round (noise input round noisePrime key) hl

/-- `RC(round, acc, hash_length)`, the form the hardware evaluates (41_constant_generator.md R111). -/
def rc (round : Nat) (acc : Word) (hl : Nat) : Word := combineConstant round (noisePost acc round) hl

end Sys2Proof.Machine
end

