-- ==== Sys2Proof/Machine/Finalize.lean ====
section
/-! DEFINITION. The command FINALIZE: main rounds, length mix, padded tail, extra rounds, squeeze (45_command_finalize.md).
`PHASE` and `ROUND` follow the table of R179 along the way (log 10). -/

namespace Sys2Proof.Machine

/-- `PHASE` 0, `IDLE` (45_command_finalize.md R179). -/
def phaseIdle : BitVec 3 := 0

/-- `PHASE` 1, `MAIN` (45_command_finalize.md R179). -/
def phaseMain : BitVec 3 := 1

/-- `PHASE` 2, `MIX` (45_command_finalize.md R179). -/
def phaseMix : BitVec 3 := 2

/-- `PHASE` 3, `TAILN` (45_command_finalize.md R179). -/
def phaseTail : BitVec 3 := 3

/-- `PHASE` 4, `EXTRA` (45_command_finalize.md R179). -/
def phaseExtra : BitVec 3 := 4

/-- `PHASE` 5, `SQUEEZE` (45_command_finalize.md R179). -/
def phaseSqueeze : BitVec 3 := 5

/-- One round of the engine at round index `r` with noise accumulator `acc`: all of the new words are computed from the old
`W`; after the exchange of the buffers `W` holds them and `NXT` holds them too, or the old words
(42_arx_round_engine.md R122, log 9). -/
def roundStep (phase : BitVec 3) (acc : Word) (s : State) (r : Nat) : State :=
  let new := arxRound s.wordsInUse s.w (rc r acc (hashLength s.ds))
  { s with
    phase := phase
    round := BitVec.ofNat 8 r
    w := new
    nxt := fillWords s.wordsInUse (getWord (if Config.buffersSwap then s.w else new)) s.nxt }

/-- `MainRounds()` (45_command_finalize.md R167). -/
def mainRounds (s : State) : State :=
  (List.range s.mainRoundCount).foldl (roundStep phaseMain s.nacc) s

/-- `BitLength()` = `(TOTAL_LEN << 3) mod 2^128` (45_command_finalize.md R168). -/
def bitLength (totalLen : BitVec 128) : BitVec 128 := totalLen <<< 3

/-- What the length mix XORs into `W[0]`: the low 64 bits of the bit length, and the number `0x80`
(45_command_finalize.md R169). -/
def lengthMixWord (bl : BitVec 128) : Word := bl.setWidth 64 ^^^ lengthMixConst

/-- `LengthMix(BL)` (45_command_finalize.md R169). -/
def lengthMix (s : State) : State :=
  { s with
    phase := phaseMix
    round := BitVec.ofNat 8 s.mainRoundCount
    w := xorWord s.w 0 (lengthMixWord (bitLength s.totalLen)) }

/-- `PaddedTail(BL)` (45_command_finalize.md R170): `BE64(TAIL | 0x80 in lane t) ‖ BE128(BL)` as 192 bits. -/
def paddedTail (tail : Word) (totalLen : BitVec 128) : BitVec 192 :=
  (tail ||| placeByte padByte (totalLen.toNat % 8)) ++ bitLength totalLen

/-- The 24 bytes of `PT`, `PT[0]` the most significant (45_command_finalize.md R170). -/
def ptBytes (pt : BitVec 192) : List Byte := (List.range 24).map fun k => pt.extractLsb' (184 - 8 * k) 8

/-- `PT <- PaddedTail(BL)` (45_command_finalize.md R165). -/
def buildTail (s : State) : State :=
  { s with
    phase := phaseTail
    round := BitVec.ofNat 8 s.mainRoundCount
    pt := paddedTail s.tail s.totalLen }

/-- `TACC <- NoiseAcc(PT, SEED)` (45_command_finalize.md R171). -/
def tailNoise (s : State) : State := { s with tacc := noiseAcc (ptBytes s.pt) s.seed }

/-- `ExtraRounds()` (45_command_finalize.md R172). -/
def extraRounds (s : State) : State :=
  ((List.range extraRoundCount).map (finRoundBase s.ds + ·)).foldl (roundStep phaseExtra s.tacc) s

/-- Digest byte `k` put into the digest: `D[511-8k : 504-8k] <- byte` on bits that are 0 (45_command_finalize.md R173). -/
def putDigestByte (d : BitVec 512) (k : Nat) (b : Byte) : BitVec 512 := d ||| (b.setWidth 512 <<< (504 - 8 * k))

/-- The byte at output offset `k`: `BE64(W[floor(k/8) mod N])[k mod 8]` (45_command_finalize.md R173). -/
def squeezeByte (ds : DigestSize) (w : Words) (k : Nat) : Byte := laneByte (getWord w (k / 8 % wordCount ds)) (k % 8)

/-- `Squeeze()` (45_command_finalize.md R173). -/
def squeeze (ds : DigestSize) (w : Words) : BitVec 512 :=
  (List.range (outLen ds)).foldl (fun d k => putDigestByte d k (squeezeByte ds w k)) 0

/-- `DIGEST <- Squeeze()`, `DIGEST_VALID <- 1`, `STATE <- FINALIZED` (45_command_finalize.md R165, R173, R174). -/
def presentDigest (s : State) : State :=
  { s with
    phase := phaseSqueeze
    round := BitVec.ofNat 8 (finRoundBase s.ds + extraRoundCount)
    digest := squeeze s.ds s.w
    digestValid := true
    fsm := .finalized }

/-- `PHASE` back to `IDLE` at the completing edge (45_command_finalize.md R179). -/
def goIdle (s : State) : State := { s with phase := phaseIdle }

/-- The steps of FINALIZE in the order of 45_command_finalize.md R165, R166. -/
def finalizeSteps (s : State) : State :=
  goIdle (presentDigest (extraRounds (tailNoise (buildTail (lengthMix (mainRounds s))))))

/-- FINALIZE (45_command_finalize.md R165): the checks in the rule's order, then the steps; in `FINALIZED` nothing changes
(R175). -/
def execFinalize (s : State) : Host.Outcome State Fault Refusal :=
  if s.fsm = .fault then .next s
  else if s.cfgValid = false then .next (raiseFault .notConfigured s)
  else if s.fsm = .finalized then .next s
  else .next (finalizeSteps s)

end Sys2Proof.Machine
end

