-- ==== Sys2Proof/Machine/InitReset.lean ====
section
/-! DEFINITION. The commands INIT and RESET (43_commands_init_reset.md). -/

namespace Sys2Proof.Machine

/-- The configuration INIT writes, before `EnterFresh` (43_commands_init_reset.md R136; 10_state.md R26, R27). -/
def configure (ds : DigestSize) (keyEn : Bool) (key : Word) (s : State) : State :=
  { s with ds := ds, keyEn := keyEn, key := if keyEn then key else 0, cfgValid := true }

/-- INIT (43_commands_init_reset.md R136): accepted in every `STATE`. -/
def execInit (ds : DigestSize) (keyEn : Bool) (key : Word) (s : State) : Host.Outcome State Fault Refusal :=
  .next (enterFresh (configure ds keyEn key s))

/-- RESET (43_commands_init_reset.md R137). -/
def execReset (s : State) : Host.Outcome State Fault Refusal :=
  if s.cfgValid = false then
    if s.fsm = .fault then .next s else .next (raiseFault .notConfigured s)
  else .next (enterFresh s)

end Sys2Proof.Machine
end

