-- ==== Sys2Proof/Machine/Dispatch.lean ====
section
/-! DEFINITION. One arm for each command. -/

namespace Sys2Proof.Machine

def exec (i : Instr) (s : State) : Host.Outcome State Fault Refusal :=
  match i with
  | .init ds keyEn key => Sys2Proof.Machine.execInit ds keyEn key s
  | .absorb bytes => Sys2Proof.Machine.execAbsorb bytes s
  | .finalize => Sys2Proof.Machine.execFinalize s
  | .reset => Sys2Proof.Machine.execReset s

end Sys2Proof.Machine
end

