-- ==== Sys2Proof/WellFormed.lean ====
section
/-! DEFINITION. The operand conditions under which an `Instr` is one that decoding can answer (30_encoding.md R79, R80, R83). -/

namespace Sys2Proof

/-- INIT: the key operand is ignored when `key_en` = 0, so a decoded INIT without a key carries the canonical key 0
(30_encoding.md R79, R83, R90). -/
def initWellFormed (keyEn : Bool) (key : Word) : Bool := keyEn || key == 0

/-- ABSORB: at most 8 bytes (30_encoding.md R80). -/
def absorbWellFormed (bytes : List Byte) : Bool := decide (bytes.length ≤ 8)

/-- The instructions that decoding can answer. -/
def Instr.wellFormed : Instr → Bool
  | .init _ keyEn key => initWellFormed keyEn key
  | .absorb bytes => absorbWellFormed bytes
  | .finalize => true
  | .reset => true

end Sys2Proof
end

