-- ==== Sys2Proof/Decode.lean ====
section
/-! DEFINITION. Decoding of command words, total, reading no state (30_encoding.md R76 to R84), and the canonical encoding
(30_encoding.md R87, R90). -/

namespace Sys2Proof

/-- `op` = `cmd[71:68]` (30_encoding.md R76). -/
def opField (w : CmdWord) : BitVec 4 := w.extractLsb' 68 4

/-- `arg` = `cmd[67:64]` (30_encoding.md R76). -/
def argField (w : CmdWord) : BitVec 4 := w.extractLsb' 64 4

/-- `data` = `cmd[63:0]` (30_encoding.md R76). -/
def dataField (w : CmdWord) : Word := w.extractLsb' 0 64

/-- `cmd[67]`, reserved in INIT (30_encoding.md R79). -/
def reservedBit (w : CmdWord) : Bool := w.getLsbD 67

/-- `cmd[66]`, `key_en` of INIT (30_encoding.md R79). -/
def keyEnBit (w : CmdWord) : Bool := w.getLsbD 66

/-- `cmd[65:64]`, the size code of INIT (30_encoding.md R79). -/
def sizeField (w : CmdWord) : BitVec 2 := w.extractLsb' 64 2

/-- The digest size of a size code; `11` is none (00_scope.md R6). -/
def sizeOfCode (c : BitVec 2) : Option DigestSize :=
  if c = 0b00#2 then some .d128 else if c = 0b01#2 then some .d256 else if c = 0b10#2 then some .d512 else none

/-- The size code of a digest size (00_scope.md R6). -/
def codeOfSize : DigestSize → BitVec 2
  | .d128 => 0b00
  | .d256 => 0b01
  | .d512 => 0b10

/-- The operand bytes of ABSORB, `b[k] = cmd[63-8k : 56-8k]` for `k < n` (30_encoding.md R80). -/
def absorbBytes (n : Nat) (data : Word) : List Byte := (List.range n).map (Machine.laneByte data)

/-- INIT: `cmd[67]` must be 0 and the size code not `11`; the key is ignored when `key_en` = 0 (30_encoding.md R79). -/
def decodeInit (w : CmdWord) : Decoded :=
  if reservedBit w then .illegal .illegalField
  else match sizeOfCode (sizeField w) with
    | none => .illegal .illegalField
    | some ds => .legal (.init ds (keyEnBit w) (if keyEnBit w then dataField w else 0))

/-- ABSORB: the byte count must be at most 8 (30_encoding.md R80). -/
def decodeAbsorb (w : CmdWord) : Decoded :=
  if (argField w).toNat ≤ 8 then .legal (.absorb (absorbBytes (argField w).toNat (dataField w)))
  else .illegal .illegalField

/-- FINALIZE and RESET: `arg` must be 0, `data` is ignored (30_encoding.md R81, R82). -/
def decodeBare (i : Instr) (w : CmdWord) : Decoded :=
  if argField w = 0 then .legal i else .illegal .illegalField

/-- Decoding, in the order of 30_encoding.md R83; every other opcode is `Illegal(1)` (30_encoding.md R77, R84). -/
def decode (w : CmdWord) : Decoded :=
  if opField w = 1 then decodeInit w
  else if opField w = 2 then decodeAbsorb w
  else if opField w = 3 then decodeBare .finalize w
  else if opField w = 4 then decodeBare .reset w
  else .illegal .illegalOpcode

/-- A command word from its three fields, `{op, arg, data}` (30_encoding.md R76). -/
def assembleFields (op arg : BitVec 4) (data : Word) : CmdWord := (op ++ arg) ++ data

/-- The canonical word of a command, its ignored bits 0 (30_encoding.md R79 to R82, R85, R90). -/
def encode : Instr → CmdWord
  | .init ds keyEn key =>
    assembleFields 1 ((0#1 ++ BitVec.ofBool keyEn) ++ codeOfSize ds) (if keyEn then key else 0)
  | .absorb bytes => assembleFields 2 (BitVec.ofNat 4 bytes.length) (Machine.leftAligned bytes)
  | .finalize => assembleFields 3 0 0
  | .reset => assembleFields 4 0 0

/-- The opcode value of a command (30_encoding.md R77). -/
def opcodeOf : Instr → BitVec 4
  | .init _ _ _ => 1
  | .absorb _ => 2
  | .finalize => 3
  | .reset => 4

/-- The bits of a legal word that decoding reads: all but the ignored bits of 30_encoding.md R85. -/
def usedBits : Instr → CmdWord
  | .init _ keyEn _ => assembleFields 0xF 0xF (if keyEn then BitVec.allOnes 64 else 0)
  | .absorb bytes => assembleFields 0xF 0xF (BitVec.allOnes 64 <<< (64 - 8 * bytes.length))
  | .finalize => assembleFields 0xF 0xF 0
  | .reset => assembleFields 0xF 0xF 0

/-- The instruction the decoder reads from a row's bits, numbered as spec/opcode_table.json numbers them: a command is one
72-bit word, bit 0 its least significant bit (30_encoding.md R10, R75); none where decoding refuses, or where the bits do
not fit one command word (log 16). -/
def decodeTableWord (nbits w : Nat) : Option Instr :=
  if nbits ≤ 72 ∧ w < 2 ^ nbits then
    match decode (BitVec.ofNat 72 w) with
    | .legal i => some i
    | .illegal _ => none
  else none

end Sys2Proof
end

