-- ==== Sys2Proof/Machine/Port.lean ====
section
/-! DEFINITION. The command port: what one rising edge of `clk` does before any command runs (20_memory.md R51 to R53;
70_reset_and_hazards.md R230). -/

namespace Sys2Proof.Machine

/-- An idle host: `rst` = 0, `cmd_valid` = 0 (20_memory.md R55; log 1). -/
def idleInput : PortIn where
  rst := false
  cmdValid := false
  cmd := 0

/-- A host that presents a command word (20_memory.md R50). -/
def commandInput (w : CmdWord) : PortIn where
  rst := false
  cmdValid := true
  cmd := w

/-- The inputs in the cycle before the coming edge. -/
def State.sampled (s : State) : PortIn := s.inputs.headD idleInput

/-- The state once those inputs have been sampled. -/
def dropInput (s : State) : State := { s with inputs := s.inputs.tail }

/-- `LAT(op, DS, STATE)` read from the table; a missing entry is 0 (92_eei_decisions.md D26; log 3). -/
def latencyOf : List LatEntry → BitVec 4 → DigestSize → FsmState → Nat
  | [], _, _, _ => 0
  | e :: es, op, ds, fsm => if e.op = op ∧ e.ds = ds ∧ e.fsm = fsm then e.cycles else latencyOf es op ds fsm

/-- The latency of a word accepted in state `s`: a function of its opcode, of `DS` and of `STATE` and of nothing else
(70_reset_and_hazards.md R243). -/
def State.latency (s : State) (w : CmdWord) : Nat := latencyOf s.lat (opField w) s.ds s.fsm

/-- What an edge comes to: a state with no command completing, or a command word whose whole effect happens at this edge. -/
inductive EdgeAction where
  /-- No command completes at this edge. -/
  | stay (s : State)
  /-- This is the completing edge of the command `w`. -/
  | run (w : CmdWord) (s : State)

/-- One rising edge. `rst` wins over everything (60_exceptions.md R208); while a command is in flight nothing is accepted
(20_memory.md R52); an accepted command completes after its latency, at once if that is 0, and until then the registers
keep their values (20_memory.md R53, log 4); with nothing to do the core holds its state (60_exceptions.md R215). -/
def clockEdge (s : State) : EdgeAction :=
  if s.sampled.rst then .stay (hardwareReset (dropInput s))
  else match s.inFlight with
    | some ⟨w, 0⟩ => .run w { dropInput s with inFlight := none }
    | some ⟨w, n + 1⟩ => .stay { dropInput s with inFlight := some ⟨w, n⟩ }
    | none =>
      if s.sampled.cmdValid then
        match s.latency s.sampled.cmd with
        | 0 => .run s.sampled.cmd (dropInput s)
        | n + 1 => .stay { dropInput s with inFlight := some ⟨s.sampled.cmd, n⟩ }
      else .stay (dropInput s)

/-- The port made ready for one word (for `withFetchWord`): nothing in flight, the word on the command port, every latency
0, the rest of the inputs after it. -/
def presentWord (s : State) (w : CmdWord) : State :=
  { s with inFlight := none, lat := [], inputs := commandInput w :: s.inputs }

end Sys2Proof.Machine
end

