-- ==== Sys2Proof/Machine/Step.lean ====
section
/-! DEFINITION. One step is one rising edge of `clk` (log 1): the port decides whether a command completes at it, and the
completing command is executed (60_exceptions.md R202). -/

namespace Sys2Proof.Machine

/-- `Execute(word)` (60_exceptions.md R202): decode, then run the command or refuse the illegal word. The checks on `STATE`
and `CFG_VALID` stand in the commands' own meanings. -/
def execute (w : CmdWord) (s : State) : Host.Outcome State Fault Refusal :=
  match decode w with
  | .legal i => exec i s
  | .illegal c => .next (refuseIllegal c s)

/-- One rising edge of `clk`. -/
def step (s : State) : Host.Outcome State Fault Refusal :=
  match clockEdge s with
  | .stay t => .next t
  | .run w t => execute w t

/-- `s` with a word of the opcode table presented on an idle command port, so that the very next step accepts and completes
it (log 2). -/
def State.withFetchWord (s : State) (nbits w : Nat) : State := presentWord s (BitVec.ofNat 72 (w % 2 ^ nbits))

end Sys2Proof.Machine
end

