-- ==== Sys2Proof/Machine/Digest.lean ====
section
/-! DEFINITION. The function the core computes, in closed form over a whole message (45_command_finalize.md R176, R177;
44_command_absorb.md R152). No step uses these: they are what statements compare the commands with. -/

namespace Sys2Proof.Machine

/-- Chunk `C[j]` of a message: the bytes at offsets `8j` to `8j+7`, the last chunk possibly short (44_command_absorb.md
R152). -/
def chunk (m : List Byte) (j : Nat) : List Byte := (m.drop (8 * j)).take 8

/-- The number of chunks, `ceil(len / 8)` (44_command_absorb.md R152). -/
def chunkCount (m : List Byte) : Nat := (m.length + 7) / 8

/-- `X(M)[i]`: the XOR of `val(C[j])` over all `j` with `j mod N = i` (44_command_absorb.md R152). -/
def chunkXor (n : Nat) (m : List Byte) (i : Nat) : Word :=
  ((List.range (chunkCount m)).filter (fun j => j % n = i)).foldl (fun a j => a ^^^ leftAligned (chunk m j)) 0

/-- The least number of zero bytes `z` with `(len + 1 + z) mod 8 = 0` (45_command_finalize.md R177). -/
def padZeros (len : Nat) : Nat := 7 - len % 8

/-- `pad(data, total_len)` (45_command_finalize.md R177). -/
def pad (data : List Byte) (totalLen : BitVec 128) : List Byte :=
  data ++ [padByte] ++ List.replicate (padZeros data.length) 0 ++ be128 (bitLength totalLen)

/-- The short last chunk of a message: its last `len mod 8` bytes (45_command_finalize.md R176). -/
def messageTail (m : List Byte) : List Byte := m.drop (m.length - m.length % 8)

/-- The word array after all the rounds of `Digest(ds, key, M)` (45_command_finalize.md R176). -/
def digestWords (ds : DigestSize) (key : Option Word) (m : List Byte) : Words :=
  let n := wordCount ds
  let r := roundCount ds
  let seed := key.getD noisePrime
  let start := buildWords fun i => if i < n then iv ds i ^^^ chunkXor n m i else 0
  let a := noiseAcc m seed
  let main := arxRounds n start ((List.range r).map fun i => rc i a (outLen ds))
  let bl := BitVec.ofNat 128 (8 * m.length)
  let mixed := xorWord main 0 (lengthMixWord bl)
  let pt := messageTail m ++ [padByte] ++ List.replicate (7 - m.length % 8) 0 ++ be128 bl
  let t := noiseAcc pt seed
  arxRounds n mixed ((List.range extraRoundCount).map fun k => rc (r + k) t (outLen ds))

/-- `Digest(ds, key, M)` (45_command_finalize.md R176): `BE64(S[0]) ‖ … ‖ BE64(S[OUTLEN/8 - 1])`. -/
def digestOf (ds : DigestSize) (key : Option Word) (m : List Byte) : List Byte :=
  (List.range (outLen ds / 8)).flatMap fun i => be64 (getWord (digestWords ds key m) i)

end Sys2Proof.Machine
end

