-- ==== Sys2Proof/Machine/Assembler.lean ====
section
/-! DEFINITION. The assembly lines of 30_encoding.md R87 as data, the words they stand for, and the pseudo-commands of R88
(log 22). -/

namespace Sys2Proof.Machine

/-- A line of the textual syntax, its numbers as written (30_encoding.md R87). -/
inductive AsmLine where
  /-- `INIT <size>` or `INIT <size>, KEY=<u64>`. -/
  | init (size : Nat) (key : Option Nat)
  /-- `ABSORB <n>, <u64>`. -/
  | absorb (n data : Nat)
  /-- `FINALIZE`. -/
  | finalize
  /-- `RESET`. -/
  | reset
  deriving DecidableEq, Repr

/-- The digest size a line names (30_encoding.md R87). -/
def sizeOfBits (bits : Nat) : Option DigestSize :=
  if bits = 128 then some .d128 else if bits = 256 then some .d256 else if bits = 512 then some .d512 else none

/-- The command of a line: refused are a size other than the three, a number that does not fit 64 bits, and `n` > 8
(30_encoding.md R87). -/
def assembleLine : AsmLine → Option Instr
  | .init size none => (sizeOfBits size).map fun ds => .init ds false 0
  | .init size (some k) => if k < 2 ^ 64 then (sizeOfBits size).map fun ds => .init ds true (BitVec.ofNat 64 k) else none
  | .absorb n data => if n ≤ 8 ∧ data < 2 ^ 64 then some (.absorb (absorbBytes n (BitVec.ofNat 64 data))) else none
  | .finalize => some .finalize
  | .reset => some .reset

/-- The text of a line, numbers in decimal (30_encoding.md R87). -/
def AsmLine.text : AsmLine → String
  | .init size none => "INIT " ++ toString size
  | .init size (some k) => "INIT " ++ toString size ++ ", KEY=" ++ toString k
  | .absorb n data => "ABSORB " ++ toString n ++ ", " ++ toString data
  | .finalize => "FINALIZE"
  | .reset => "RESET"

/-- `ABSORBX m` (30_encoding.md R88): one ABSORB for each chunk, or a single ABSORB of nothing. -/
def absorbX (m : List Byte) : List Instr :=
  if m = [] then [.absorb []] else (List.range (chunkCount m)).map fun q => .absorb (chunk m q)

/-- `ABSORBS "<ASCII text>"` (30_encoding.md R88): one byte for each character. -/
def absorbS (text : String) : List Instr := absorbX (text.toList.map fun c => BitVec.ofNat 8 c.toNat)

/-- INIT with an optional key as a command, its key operand 0 where none is given (30_encoding.md R87, R89). -/
def initCommand (ds : DigestSize) : Option Word → Instr
  | none => .init ds false 0
  | some k => .init ds true k

/-- `HASH <size>[, KEY=<u64>], m` (30_encoding.md R88). -/
def hashCommands (ds : DigestSize) (key : Option Word) (m : List Byte) : List Instr :=
  initCommand ds key :: (absorbX m ++ [.finalize])

end Sys2Proof.Machine
end

