-- ==== Sys2Proof/Machine/CtEq.lean ====
section
/-! DEFINITION. The constant-time equality helper (46_cteq_helper.md): a pure function, no command of the core and no part of
its state (R190, R194; log 19). -/

namespace Sys2Proof.Machine

/-- The accumulator loop of 46_cteq_helper.md R191: every byte pair, no early exit. -/
def ctEqLoop : List Byte → List Byte → Byte → Byte
  | a :: as, b :: bs, acc => ctEqLoop as bs (acc ||| (a ^^^ b))
  | _, _, acc => acc

/-- `ct_eq(a, b)` (46_cteq_helper.md R191). -/
def ctEq (a b : List Byte) : Bool := if a.length ≠ b.length then false else ctEqLoop a b 0 == 0

/-- The number of loop iterations (46_cteq_helper.md R192): the only measure of time a model without time has. -/
def ctEqIterations (a b : List Byte) : Nat := if a.length ≠ b.length then 0 else a.length

end Sys2Proof.Machine
end

