-- ==== Sys2Proof/Machine/Flags.lean ====
section
/-! DEFINITION. Flags and status. The core has no condition codes (10_state.md R34): what a host sees are the output ports,
functions of the registers alone (20_memory.md R51, R54). -/

namespace Sys2Proof.Machine

/-- The code of `STATE` on the `fsm_state` port (10_state.md R24). -/
def fsmCode : FsmState → BitVec 3
  | .unconf => 0b000
  | .fresh => 0b001
  | .absorbing => 0b010
  | .finalized => 0b011
  | .fault => 0b100

/-- The code of a fault cause on the `fault_cause` port (60_exceptions.md R201). -/
def causeCode : Cause → BitVec 3
  | .none => 0
  | .illegalOpcode => 1
  | .illegalField => 2
  | .notConfigured => 3
  | .absorbAfterFinalize => 4

/-- `BUSY` (10_state.md R36): a command is in flight. -/
def State.busy (s : State) : Bool := s.inFlight.isSome

/-- The output ports (20_memory.md R50). -/
structure PortOut where
  /-- `cmd_ready`. -/
  cmdReady : Bool
  /-- `busy`. -/
  busy : Bool
  /-- `digest_valid`. -/
  digestValid : Bool
  /-- `digest[511:0]`. -/
  digest : BitVec 512
  /-- `fault`. -/
  fault : Bool
  /-- `fault_cause[2:0]`. -/
  faultCause : BitVec 3
  /-- `fsm_state[2:0]`. -/
  fsmState : BitVec 3
  deriving DecidableEq, Repr

/-- The output ports as functions of state (20_memory.md R54; 10_state.md R34). -/
def ports (s : State) : PortOut where
  cmdReady := !s.busy
  busy := s.busy
  digestValid := s.digestValid
  digest := s.digest
  fault := s.fsm == .fault
  faultCause := causeCode s.faultCause
  fsmState := fsmCode s.fsm

/-- Digest byte `k` as it stands on the digest port, `digest[511-8k : 504-8k]` (20_memory.md R59). -/
def digestByte (d : BitVec 512) (k : Nat) : Byte := d.extractLsb' (504 - 8 * k) 8

/-- The bytes `finalize()` returns: digest bytes 0 to OUTLEN-1 of the port (45_command_finalize.md R174). -/
def digestBytes (s : State) (n : Nat) : List Byte := (List.range n).map (digestByte s.digest)

end Sys2Proof.Machine
end

