-- ==== Sys2Proof/Machine/Sequence.lean ====
section
/-! DEFINITION. Sequences: the result of a command sequence is the fold of the command-level transition function over it
(20_memory.md R66), and a run of edges. -/

namespace Sys2Proof.Machine

/-- Commands executed in order, each from the state the one before left (20_memory.md R66). -/
def execAll : List Instr → State → Host.Outcome State Fault Refusal
  | [], s => .next s
  | i :: is, s =>
    match exec i s with
    | .next t => execAll is t
    | .fault r => .fault r
    | .refused r => .refused r

/-- Accepted command words executed in order, illegal ones included (60_exceptions.md R202). -/
def executeAll : List CmdWord → State → Host.Outcome State Fault Refusal
  | [], s => .next s
  | w :: ws, s =>
    match execute w s with
    | .next t => executeAll ws t
    | .fault r => .fault r
    | .refused r => .refused r

/-- `k` rising edges (20_memory.md R51). -/
def runEdges : Nat → State → Host.Outcome State Fault Refusal
  | 0, s => .next s
  | k + 1, s =>
    match step s with
    | .next t => runEdges k t
    | .fault r => .fault r
    | .refused r => .refused r

/-- The command word that completes at the coming edge, if one does (20_memory.md R53). -/
def completing (s : State) : Option CmdWord :=
  match clockEdge s with
  | .stay _ => none
  | .run w _ => some w

end Sys2Proof.Machine
end

