-- ==== Sys2Proof/Safety.lean ====
section
/-! DEFINITION. The terms claims use: the invariant of 10_state.md R37, the registers as functions of a message
(44_command_absorb.md R152), the transition table (10_state.md R25), and which registers two states share. -/

namespace Sys2Proof.Machine

/-- The invariant of 10_state.md R37, with the facts of R29, R30 and R32 that need no message: (a) and (g) hold by the types
of `fsm` and `ds` (log 12). -/
structure Inv (s : State) : Prop where
  /-- R37 (b): `UNCONF` implies `CFG_VALID` = 0. -/
  unconf : s.fsm = .unconf → s.cfgValid = false
  /-- R37 (b): `FRESH`, `ABSORBING`, `FINALIZED` imply `CFG_VALID` = 1. -/
  configured : s.fsm = .fresh ∨ s.fsm = .absorbing ∨ s.fsm = .finalized → s.cfgValid = true
  /-- R37 (c). -/
  digestValid : s.digestValid = true ↔ s.fsm = .finalized
  /-- R32: `DIGEST_VALID` = 0 implies `DIGEST` = 0. -/
  noDigest : s.digestValid = false → s.digest = 0
  /-- R32: below the first OUTLEN bytes the digest is 0. -/
  digestLow : ∀ k, outLen s.ds ≤ k → k < 64 → digestByte s.digest k = 0
  /-- R37 (d). -/
  cause : s.faultCause ≠ .none ↔ s.fsm = .fault
  /-- R37 (e). -/
  fresh : s.fsm = .fresh → s.totalLen = 0 ∧ s.widx = 0 ∧ s.tail = 0 ∧ s.nacc = s.seed
  /-- R37 (e), the word array. -/
  freshWords : s.fsm = .fresh → ∀ i, i < wordCount s.ds → getWord s.w i = iv s.ds i
  /-- R29: `WIDX` is below N(DS). -/
  widx : s.widx.toNat < wordCount s.ds
  /-- R30: the lanes of `TAIL` from `TOTAL_LEN mod 8` on are 0 (all of them when that is 0). -/
  tail : ∀ k, s.lane ≤ k → k < 8 → laneByte s.tail k = 0
  /-- R37 (h). -/
  key : s.keyEn = false → s.key = 0

/-- The registers after absorbing the message `m` (44_command_absorb.md R152; 10_state.md R37 (f)). -/
structure Tracks (m : List Byte) (s : State) : Prop where
  /-- `W[i] = IV(DS)[i] ^ X(M)[i]`. -/
  words : ∀ i, i < wordCount s.ds → getWord s.w i = iv s.ds i ^^^ chunkXor (wordCount s.ds) m i
  /-- `TOTAL_LEN = L`. -/
  totalLen : s.totalLen = BitVec.ofNat 128 m.length
  /-- `WIDX = floor(L / 8) mod N`. -/
  widx : s.widx = BitVec.ofNat 6 (m.length / 8 % wordCount s.ds)
  /-- `TAIL = val(C[last])` of a short last chunk, else 0. -/
  tail : s.tail = leftAligned (messageTail m)
  /-- `NACC = NoiseAcc(M, SEED)`. -/
  nacc : s.nacc = noiseAcc m s.seed

/-- The states from which the core takes message bytes: configured, `FRESH` or `ABSORBING` (44_command_absorb.md R150). -/
def AcceptsMessage (s : State) : Prop := s.cfgValid = true ∧ (s.fsm = .fresh ∨ s.fsm = .absorbing)

/-- The configuration registers are the same (10_state.md R26, R27). -/
def SameConfig (s t : State) : Prop :=
  t.cfgValid = s.cfgValid ∧ t.ds = s.ds ∧ t.keyEn = s.keyEn ∧ t.key = s.key

/-- The message registers are the same (10_state.md R28 to R31). -/
def SameMessage (s t : State) : Prop :=
  t.totalLen = s.totalLen ∧ t.widx = s.widx ∧ t.tail = s.tail ∧ t.nacc = s.nacc

/-- The digest and fault registers are the same (10_state.md R32, R33). -/
def SameOutputs (s t : State) : Prop :=
  t.digest = s.digest ∧ t.digestValid = s.digestValid ∧ t.faultCause = s.faultCause

/-- The microarchitectural registers are the same (10_state.md R36). -/
def SameMicro (s t : State) : Prop :=
  t.nxt = s.nxt ∧ t.round = s.round ∧ t.phase = s.phase ∧ t.pt = s.pt ∧ t.tacc = s.tacc

/-- The port's state and the model's own fields are the same. -/
def SamePort (s t : State) : Prop :=
  t.inFlight = s.inFlight ∧ t.inputs = s.inputs ∧ t.lat = s.lat ∧ t.draws = s.draws

/-- The words from index `n` on are the same. -/
def SameWordsFrom (n : Nat) (s t : State) : Prop := ∀ i, n ≤ i → i < 40 → getWord t.w i = getWord s.w i

/-- Two states agree in every architectural register but the unused words `W[i]`, `i ≥ N(DS)`
(43_commands_init_reset.md R138). -/
def AgreeInUse (s t : State) : Prop :=
  t.fsm = s.fsm ∧ SameConfig s t ∧ SameMessage s t ∧ SameOutputs s t ∧
    ∀ i, i < wordCount s.ds → getWord t.w i = getWord s.w i

/-- The transition table of 10_state.md R25 for legally encoded commands. -/
def transition : FsmState → Bool → Instr → FsmState
  | _, _, .init _ _ _ => .fresh
  | .unconf, _, _ => .fault
  | .fresh, _, .absorb _ => .absorbing
  | .fresh, _, .finalize => .finalized
  | .fresh, _, .reset => .fresh
  | .absorbing, _, .absorb _ => .absorbing
  | .absorbing, _, .finalize => .finalized
  | .absorbing, _, .reset => .fresh
  | .finalized, _, .absorb _ => .fault
  | .finalized, _, .finalize => .finalized
  | .finalized, _, .reset => .fresh
  | .fault, true, .reset => .fresh
  | .fault, _, _ => .fault

/-- The key a state is configured with, absent when `KEY_EN` = 0 (10_state.md R27). -/
def State.keyOption (s : State) : Option Word := if s.keyEn then some s.key else none

/-- The round constants of the main rounds (45_command_finalize.md R167). -/
def mainConstants (s : State) : List Word := (List.range (roundCount s.ds)).map fun r => rc r s.nacc (outLen s.ds)

/-- The round constants of the extra rounds, indices R to R+3 (45_command_finalize.md R172). -/
def extraConstants (s : State) (tacc : Word) : List Word :=
  (List.range 4).map fun k => rc (roundCount s.ds + k) tacc (outLen s.ds)

end Sys2Proof.Machine
end

