-- ==== Sys2Proof/Certificates/Slice0/Obligations.lean ====
section
/-! DEFINITION. The statements for the provers, one for each rule or property named in its docstring. -/

open Sys2Proof Sys2Proof.Machine

/-! ## Reset, ports, edges -/

/-- 70_reset_and_hazards.md R230: an edge with `rst` = 1, from every state, whatever is in flight or presented, gives every
register that has a reset value that value. The registers R230 calls unspecified (`W`, `NXT`, `ROUND`, `PHASE`, `PT`, `TACC`)
are left unconstrained. -/
def Obligations.HardwareResetFromEveryState : Prop :=
  ∀ (s : State) (p : PortIn) (rest : List PortIn), s.inputs = p :: rest → p.rst = true →
    ∃ t, step s = .next t ∧ t.fsm = .unconf ∧ t.cfgValid = false ∧ codeOfSize t.ds = 0b00#2 ∧ t.keyEn = false ∧
      t.key = 0 ∧ t.totalLen = 0 ∧ t.widx = 0 ∧ t.tail = 0 ∧ t.nacc = 0 ∧ t.digest = 0 ∧ t.digestValid = false ∧
      t.faultCause = .none ∧ t.busy = false ∧ t.inputs = rest ∧ t.lat = s.lat

/-- 70_reset_and_hazards.md R231: the outputs in the first cycle after a reset edge, from every state. -/
def Obligations.OutputsAfterResetEdge : Prop :=
  ∀ (s : State) (p : PortIn) (rest : List PortIn), s.inputs = p :: rest → p.rst = true →
    ∃ t, step s = .next t ∧ ports t =
      { cmdReady := true, busy := false, digestValid := false, digest := 0, fault := false, faultCause := 0,
        fsmState := 0b000 }

/-- 10_state.md R38, the "after hardware reset" column, for the registers that have a value there, in `State.reset`. -/
def Obligations.ResetStateRegisters : Prop :=
  State.reset.fsm = .unconf ∧ State.reset.cfgValid = false ∧ codeOfSize State.reset.ds = 0b00#2 ∧
    State.reset.keyEn = false ∧ State.reset.key = 0 ∧ State.reset.totalLen = 0 ∧ State.reset.widx = 0 ∧
    State.reset.tail = 0 ∧ State.reset.nacc = 0 ∧ State.reset.digest = 0 ∧ State.reset.digestValid = false ∧
    State.reset.faultCause = .none ∧ State.reset.busy = false

/-- 20_memory.md R54: every output port as a function of the registers. -/
def Obligations.PortsAreFunctionsOfState : Prop :=
  ∀ s : State,
    (ports s).digestValid = s.digestValid ∧ (ports s).digest = s.digest ∧
    (Inv s → s.digestValid = false → (ports s).digest = 0) ∧
    ((ports s).fault = true ↔ s.fsm = .fault) ∧
    (ports s).faultCause = causeCode s.faultCause ∧ (ports s).fsmState = fsmCode s.fsm ∧
    (ports s).busy = s.busy ∧ (ports s).cmdReady = !s.busy

/-- 20_memory.md R52 and R53, edge by edge with `rst` = 0: an idle host changes nothing; a ready core accepts the presented
word, runs it at once if its latency is 0 and otherwise only records it; while a command is in flight nothing presented is
accepted, and the command's effect happens at its last edge. That the registers no port shows keep their values while busy is
the model's choice (log 4). -/
def Obligations.CommandAcceptedOnlyWhenReady : Prop :=
  ∀ s : State, s.sampled.rst = false →
    (s.inFlight = none → s.sampled.cmdValid = false → step s = .next { s with inputs := s.inputs.tail }) ∧
    (s.inFlight = none → s.sampled.cmdValid = true → s.latency s.sampled.cmd = 0 →
      step s = execute s.sampled.cmd { s with inputs := s.inputs.tail }) ∧
    (∀ n, s.inFlight = none → s.sampled.cmdValid = true → s.latency s.sampled.cmd = n + 1 →
      step s = .next { s with inputs := s.inputs.tail, inFlight := some ⟨s.sampled.cmd, n⟩ }) ∧
    (∀ w n, s.inFlight = some ⟨w, n + 1⟩ →
      step s = .next { s with inputs := s.inputs.tail, inFlight := some ⟨w, n⟩ }) ∧
    (∀ w, s.inFlight = some ⟨w, 0⟩ → step s = execute w { s with inputs := s.inputs.tail, inFlight := none })

/-- 20_memory.md R53: an accepted word completes exactly `LAT` edges after its accepting edge, whatever is presented
meanwhile without `rst`; until then the core is busy and the registers visible at ports keep their values; at the completing
edge the whole effect happens and `BUSY` is 0. For every latency table. -/
def Obligations.LatencyThenWholeEffect : Prop :=
  ∀ (s : State) (w : CmdWord) (ins rest : List PortIn), s.inFlight = none →
    s.inputs = commandInput w :: (ins ++ rest) → ins.length = s.latency w → (∀ p ∈ ins, p.rst = false) →
    (∀ j, 1 ≤ j → j ≤ s.latency w → ∃ u, runEdges j s = .next u ∧ u.busy = true ∧ u.fsm = s.fsm ∧ SameOutputs s u) ∧
    ∃ t, runEdges (s.latency w + 1) s = .next t ∧ execute w { s with inputs := rest } = .next t ∧ t.busy = false

/-- 70_reset_and_hazards.md R243, R244: the latency is a function of the opcode, of `DS` and of `STATE`, so of no message byte,
key or word. That a table stands for it is the model's form (log 3). -/
def Obligations.LatencyIndependentOfData : Prop :=
  ∀ (s t : State) (v w : CmdWord), s.lat = t.lat → s.ds = t.ds → s.fsm = t.fsm → opField v = opField w →
    s.latency v = t.latency w

/-- A step runs the decoded instruction (20_memory.md R69): when the word that completes at this edge decodes to `i`, `i` is
well formed and the step is `exec i` on the state with the port's own fields moved on: the inputs of this edge sampled and
nothing in flight. The first clause is a word accepted with latency 0, the second a word in flight at its last edge. -/
def Obligations.StepRunsDecodedInstruction : Prop :=
  ∀ (s : State) (w : CmdWord) (i : Instr), decode w = .legal i →
    i.wellFormed = true ∧
    (s.inFlight = none → s.sampled = commandInput w → s.latency w = 0 →
      step s = exec i { s with inputs := s.inputs.tail }) ∧
    (s.inFlight = some ⟨w, 0⟩ → s.sampled.rst = false →
      step s = exec i { s with inputs := s.inputs.tail, inFlight := none })

/-- The host's placing of a word (log 2): the very next step runs its instruction, from every state. -/
def Obligations.FetchedWordRunsNext : Prop :=
  ∀ (s : State) (w : Nat) (i : Instr), w < 2 ^ 72 → decodeTableWord 72 w = some i →
    step (s.withFetchWord 72 w) = exec i { s with inFlight := none, lat := [] }

/-- The core never stops (93_implementation_defined.md, end of part 1; 45_command_finalize.md R178 (c)): from every state the
step answers a next state, and so does every command. -/
def Obligations.EveryStepAnswersNext : Prop :=
  (∀ s : State, ∃ t, step s = .next t) ∧ ∀ (i : Instr) (s : State), ∃ t, exec i s = .next t

/-! ## Encoding -/

/-- Decoding the canonical word of a well-formed command gives the command back, for all operands (30_encoding.md R79 to R83). -/
def Obligations.DecodeEncodeRoundTrip : Prop :=
  ∀ i : Instr, i.wellFormed = true → decode (encode i) = .legal i

/-- The other direction: a legal word decodes to a well-formed command, whose canonical word is the word with its ignored bits
cleared (30_encoding.md R85, R90). -/
def Obligations.EncodeDecodeKeepsUsedBits : Prop :=
  ∀ (w : CmdWord) (i : Instr), decode w = .legal i → i.wellFormed = true ∧ encode i = w &&& usedBits i

/-- 30_encoding.md R83, R85: two words that differ only in ignored bits decode to the same command. -/
def Obligations.IgnoredBitsHaveNoEffect : Prop :=
  ∀ (v w : CmdWord) (i : Instr), decode w = .legal i → v &&& usedBits i = w &&& usedBits i → decode v = .legal i

/-- 30_encoding.md R84: the illegal words are exactly the listed ones, with the listed causes, and such a word, accepted,
raises the fault with that cause, or changes nothing in `FAULT`. -/
def Obligations.IllegalWordsAreExactlyTheListed : Prop :=
  (∀ w : CmdWord, decode w = .illegal .illegalOpcode ↔
    opField w ∈ [0x0#4, 0x5#4, 0x6#4, 0x7#4, 0x8#4, 0x9#4, 0xA#4, 0xB#4, 0xC#4, 0xD#4, 0xE#4, 0xF#4]) ∧
  (∀ w : CmdWord, decode w = .illegal .illegalField ↔
    (opField w = 0x1#4 ∧ (w.getLsbD 67 = true ∨ w.extractLsb' 64 2 = 0b11#2)) ∨
    (opField w = 0x2#4 ∧ 9 ≤ (w.extractLsb' 64 4).toNat) ∨
    ((opField w = 0x3#4 ∨ opField w = 0x4#4) ∧ w.extractLsb' 64 4 ≠ 0x0#4)) ∧
  (∀ (w : CmdWord) (c : Cause), decode w = .illegal c → c = .illegalOpcode ∨ c = .illegalField) ∧
  (∀ (w : CmdWord) (c : Cause) (s : State), decode w = .illegal c →
    (s.fsm = .fault → execute w s = .next s) ∧
    (s.fsm ≠ .fault → ∃ t, execute w s = .next t ∧ t.fsm = .fault ∧ t.faultCause = c))

/-- 30_encoding.md R90: the table of canonical encodings, both ways, and its illegal words. -/
def Obligations.CanonicalWordsDecode : Prop :=
  [Instr.init .d128 false 0, .init .d256 false 0, .init .d512 false 0, .init .d128 true 0x0123456789ABCDEF,
      .init .d256 true 0, .init .d512 true 0xFFFFFFFFFFFFFFFF, .absorb [], .absorb [0x63], .absorb [0x61, 0x62],
      .absorb [0x61, 0x62, 0x63], .absorb [0x61, 0x62, 0x63, 0x64, 0x65, 0x66, 0x67, 0x68], .finalize, .reset].map encode =
    [0x10_0000000000000000#72, 0x11_0000000000000000#72, 0x12_0000000000000000#72, 0x14_0123456789ABCDEF#72,
      0x15_0000000000000000#72, 0x16_FFFFFFFFFFFFFFFF#72, 0x20_0000000000000000#72, 0x21_6300000000000000#72,
      0x22_6162000000000000#72, 0x23_6162630000000000#72, 0x28_6162636465666768#72, 0x30_0000000000000000#72,
      0x40_0000000000000000#72] ∧
  [0x10_0000000000000000#72, 0x14_0123456789ABCDEF#72, 0x16_FFFFFFFFFFFFFFFF#72, 0x20_0000000000000000#72,
      0x21_6300000000000000#72, 0x23_6162630000000000#72, 0x28_6162636465666768#72, 0x30_0000000000000000#72,
      0x40_0000000000000000#72].map decode =
    [.legal (.init .d128 false 0), .legal (.init .d128 true 0x0123456789ABCDEF),
      .legal (.init .d512 true 0xFFFFFFFFFFFFFFFF), .legal (.absorb []), .legal (.absorb [0x63]),
      .legal (.absorb [0x61, 0x62, 0x63]), .legal (.absorb [0x61, 0x62, 0x63, 0x64, 0x65, 0x66, 0x67, 0x68]),
      .legal .finalize, .legal .reset] ∧
  [0x00_0000000000000000#72, 0x50_0000000000000000#72, 0xFF_FFFFFFFFFFFFFFFF#72].map decode =
    [.illegal .illegalOpcode, .illegal .illegalOpcode, .illegal .illegalOpcode] ∧
  [0x13_0000000000000000#72, 0x18_0000000000000000#72, 0x29_0000000000000000#72, 0x31_0000000000000000#72,
      0x41_0000000000000000#72].map decode =
    [.illegal .illegalField, .illegal .illegalField, .illegal .illegalField, .illegal .illegalField,
      .illegal .illegalField]

/-! ## Faults -/

/-- 60_exceptions.md R204: whenever an accepted word leaves the core in `FAULT`, either it was there already and nothing
changed, or it was not and exactly the fault entry happened: cause, `STATE`, the digest withdrawn, nothing else. -/
def Obligations.FaultEntryIsPrecise : Prop :=
  ∀ (w : CmdWord) (s t : State), execute w s = .next t → t.fsm = .fault →
    (s.fsm = .fault ∧ t = s) ∨
    (s.fsm ≠ .fault ∧ ∃ c : Cause, c ≠ .none ∧
      t = { s with faultCause := c, fsm := .fault, digest := 0, digestValid := false })

/-- 60_exceptions.md R205: in `FAULT` every accepted word but a legal INIT, or a legal RESET with `CFG_VALID` = 1, changes no
register at all; and INIT always goes on. -/
def Obligations.FaultStateDropsWords : Prop :=
  ∀ (w : CmdWord) (s : State), s.fsm = .fault →
    ((∀ ds e k, decode w ≠ .legal (.init ds e k)) → (decode w = .legal .reset → s.cfgValid = false) →
      execute w s = .next s) ∧
    (∀ ds e k, decode w = .legal (.init ds e k) → ∃ t, execute w s = .next t ∧ t.fsm = .fresh ∧ t.faultCause = .none)

/-- 60_exceptions.md R206: what an edge that leaves `FAULT` was: a hardware reset, an INIT, or a RESET of a configured core,
the last two with the cause cleared, the message lost, and the new or the last configuration. -/
def Obligations.OnlyInitResetOrRstLeaveFault : Prop :=
  ∀ s t : State, s.fsm = .fault → step s = .next t → t.fsm ≠ .fault →
    (s.sampled.rst = true ∧ t.fsm = .unconf) ∨
    (s.sampled.rst = false ∧ ∃ w, completing s = some w ∧ t.fsm = .fresh ∧ t.faultCause = .none ∧ t.totalLen = 0 ∧
      ((∃ ds e k, decode w = .legal (.init ds e k) ∧ t.ds = ds ∧ t.keyEn = e) ∨
       (decode w = .legal .reset ∧ s.cfgValid = true ∧ SameConfig s t)))

/-- 60_exceptions.md R202: the checks on an accepted word and their order. -/
def Obligations.ChecksInOrder : Prop :=
  ∀ (w : CmdWord) (s : State), execute w s =
    if s.fsm = .fault then
      match decode w with
      | .legal (.init ds e k) => exec (.init ds e k) s
      | .legal .reset => if s.cfgValid = true then exec .reset s else .next s
      | .legal (.absorb _) => .next s
      | .legal .finalize => .next s
      | .illegal _ => .next s
    else
      match decode w with
      | .illegal c => .next (raiseFault c s)
      | .legal (.init ds e k) => exec (.init ds e k) s
      | .legal (.absorb bs) =>
        if s.cfgValid = false then .next (raiseFault .notConfigured s)
        else if s.fsm = .finalized then .next (raiseFault .absorbAfterFinalize s)
        else exec (.absorb bs) s
      | .legal .finalize =>
        if s.cfgValid = false then .next (raiseFault .notConfigured s) else exec .finalize s
      | .legal .reset =>
        if s.cfgValid = false then .next (raiseFault .notConfigured s) else exec .reset s

/-- 60_exceptions.md R203: which word can raise which cause; and from a configured `FRESH` or `ABSORBING` only a malformed word
faults. -/
def Obligations.CausesByOpcode : Prop :=
  (∀ (w : CmdWord) (s t : State), s.fsm ≠ .fault → execute w s = .next t → t.fsm = .fault →
    (opField w ∉ [0x1#4, 0x2#4, 0x3#4, 0x4#4] → t.faultCause = .illegalOpcode) ∧
    (opField w = 0x1#4 → t.faultCause = .illegalField) ∧
    (opField w = 0x2#4 → t.faultCause ∈ [.illegalField, .notConfigured, .absorbAfterFinalize]) ∧
    (opField w = 0x3#4 → t.faultCause ∈ [.illegalField, .notConfigured]) ∧
    (opField w = 0x4#4 → t.faultCause ∈ [.illegalField, .notConfigured])) ∧
  (∀ (w : CmdWord) (s t : State), AcceptsMessage s → execute w s = .next t → t.fsm = .fault →
    ∃ c, decode w = .illegal c)

/-- 10_state.md R25: the transition table, its causes, its cells in which nothing changes, and the rows for an illegally encoded
command and for hardware reset. -/
def Obligations.TransitionTable : Prop :=
  ∀ s : State, Inv s →
    (∀ i, ∃ t, exec i s = .next t ∧ t.fsm = transition s.fsm s.cfgValid i) ∧
    (s.fsm = .unconf → ∀ i t, exec i s = .next t → t.fsm = .fault → t.faultCause = .notConfigured) ∧
    (s.fsm = .finalized → ∀ bs t, exec (.absorb bs) s = .next t → t.faultCause = .absorbAfterFinalize) ∧
    (s.fsm = .finalized → exec .finalize s = .next s) ∧
    (s.fsm = .fault → (∀ bs, exec (.absorb bs) s = .next s) ∧ exec .finalize s = .next s ∧
      (s.cfgValid = false → exec .reset s = .next s)) ∧
    (∀ w c, decode w = .illegal c → ∃ t, execute w s = .next t ∧ t.fsm = .fault ∧ (s.fsm = .fault → t = s)) ∧
    (s.sampled.rst = true → ∃ t, step s = .next t ∧ t.fsm = .unconf)

/-- 10_state.md R25: `FRESH` and `ABSORBING` differ in nothing but the code. -/
def Obligations.FreshAndAbsorbingBehaveAlike : Prop :=
  ∀ (i : Instr) (s : State), exec i { s with fsm := .fresh } = exec i { s with fsm := .absorbing }

/-! ## INIT and RESET -/

/-- 43_commands_init_reset.md R136: INIT, from every state, with its frame; and the malformed INIT, which is refused before any
write. -/
def Obligations.InitResult : Prop :=
  (∀ (ds : DigestSize) (keyEn : Bool) (key : Word) (s : State),
    ∃ t, exec (.init ds keyEn key) s = .next t ∧
      t.ds = ds ∧ t.keyEn = keyEn ∧ t.key = (if keyEn then key else 0) ∧ t.cfgValid = true ∧
      (∀ i, i < wordCount ds → getWord t.w i = 0) ∧ SameWordsFrom (wordCount ds) s t ∧
      t.totalLen = 0 ∧ t.widx = 0 ∧ t.tail = 0 ∧ t.nacc = (if keyEn then key else 0x9E3779B97F4A7C15) ∧
      t.digest = 0 ∧ t.digestValid = false ∧ t.faultCause = .none ∧ t.fsm = .fresh ∧ SamePort s t) ∧
  (∀ (w : CmdWord) (s : State), opField w = 0x1#4 → (w.getLsbD 67 = true ∨ w.extractLsb' 64 2 = 0b11#2) →
    s.fsm ≠ .fault → ∃ t, execute w s = .next t ∧ t.fsm = .fault ∧ t.faultCause = .illegalField ∧ SameConfig s t)

/-- 43_commands_init_reset.md R137: RESET. Configured, it completes from every `STATE`, with its frame; not configured, it
faults with cause 3, or changes nothing in `FAULT`; with a non-zero `arg` the word is illegal. -/
def Obligations.ResetCommandResult : Prop :=
  (∀ s : State, s.cfgValid = true →
    ∃ t, exec .reset s = .next t ∧
      (∀ i, i < wordCount s.ds → getWord t.w i = iv s.ds i) ∧ SameWordsFrom (wordCount s.ds) s t ∧
      t.totalLen = 0 ∧ t.widx = 0 ∧ t.tail = 0 ∧ t.nacc = s.seed ∧ t.digest = 0 ∧ t.digestValid = false ∧
      t.faultCause = .none ∧ t.fsm = .fresh ∧ SameConfig s t ∧ SamePort s t) ∧
  (∀ s : State, s.cfgValid = false → s.fsm = .fault → exec .reset s = .next s) ∧
  (∀ s : State, s.cfgValid = false → s.fsm ≠ .fault →
    exec .reset s = .next { s with faultCause := .notConfigured, fsm := .fault, digest := 0, digestValid := false }) ∧
  (∀ w : CmdWord, opField w = 0x4#4 → w.extractLsb' 64 4 ≠ 0x0#4 → decode w = .illegal .illegalField)

/-- 43_commands_init_reset.md R138: RESET of a configured core agrees with an INIT of the same configuration from any state `v`
in every register but the unused words, a following FINALIZE gives the same digest, that of the empty message, and a second
RESET changes nothing. -/
def Obligations.ResetEqualsInit : Prop :=
  ∀ s v : State, Inv s → s.cfgValid = true →
    ∃ t u, exec .reset s = .next t ∧ exec (initCommand s.ds s.keyOption) v = .next u ∧ AgreeInUse u t ∧
      exec .reset t = .next t ∧
      ∃ t' u', exec .finalize t = .next t' ∧ exec .finalize u = .next u' ∧ t'.digest = u'.digest ∧
        digestBytes t' (outLen s.ds) = digestOf s.ds s.keyOption []

/-- 43_commands_init_reset.md R137, corner case (a): RESET in `FRESH` changes no register. -/
def Obligations.ResetInFreshChangesNothing : Prop :=
  ∀ s : State, Inv s → s.fsm = .fresh → exec .reset s = .next s

/-! ## ABSORB -/

/-- 44_command_absorb.md R151: the effect of one message byte, with its frame. -/
def Obligations.AbsorbByteEffect : Prop :=
  ∀ (s : State) (b : Byte), s.widx.toNat < wordCount s.ds →
    getWord (absorbByte s b).w s.widx.toNat =
      getWord s.w s.widx.toNat ^^^ (b.setWidth 64 <<< (8 * (7 - s.totalLen.toNat % 8))) ∧
    (∀ i, i ≠ s.widx.toNat → getWord (absorbByte s b).w i = getWord s.w i) ∧
    (absorbByte s b).nacc = rotl (s.nacc + b.setWidth 64 * BitVec.ofNat 64 (s.totalLen.toNat + 1)) 7 ∧
    (s.totalLen.toNat % 8 = 7 →
      (absorbByte s b).tail = 0 ∧ (absorbByte s b).widx.toNat = (s.widx.toNat + 1) % wordCount s.ds) ∧
    (s.totalLen.toNat % 8 ≠ 7 →
      (absorbByte s b).tail = s.tail ||| (b.setWidth 64 <<< (8 * (7 - s.totalLen.toNat % 8))) ∧
      (absorbByte s b).widx = s.widx) ∧
    (absorbByte s b).totalLen.toNat = (s.totalLen.toNat + 1) % 2 ^ 128 ∧
    (absorbByte s b).fsm = s.fsm ∧ SameConfig s (absorbByte s b) ∧ SameOutputs s (absorbByte s b) ∧
    SamePort s (absorbByte s b)

/-- 44_command_absorb.md R150: ABSORB in every `STATE`: the bytes in order and then `ABSORBING`, the two faults, nothing in
`FAULT`; and the byte counts over 8 are illegal. -/
def Obligations.AbsorbOutcomes : Prop :=
  (∀ (s : State) (bytes : List Byte),
    (AcceptsMessage s → exec (.absorb bytes) s = .next { bytes.foldl absorbByte s with fsm := .absorbing }) ∧
    (s.fsm = .fault → exec (.absorb bytes) s = .next s) ∧
    (s.fsm ≠ .fault → s.cfgValid = false → exec (.absorb bytes) s =
      .next { s with faultCause := .notConfigured, fsm := .fault, digest := 0, digestValid := false }) ∧
    (s.cfgValid = true → s.fsm = .finalized → exec (.absorb bytes) s =
      .next { s with faultCause := .absorbAfterFinalize, fsm := .fault, digest := 0, digestValid := false })) ∧
  (∀ w : CmdWord, opField w = 0x2#4 → 8 < (w.extractLsb' 64 4).toNat → decode w = .illegal .illegalField)

/-- 44_command_absorb.md R150, the registers written and not written: an ABSORB of at most 8 bytes completes, and of the word
array only `W[WIDX]` changes, and the next word only if the bytes straddle a chunk boundary. -/
def Obligations.AbsorbFrame : Prop :=
  ∀ (s : State) (bytes : List Byte), AcceptsMessage s → bytes.length ≤ 8 → s.widx.toNat < wordCount s.ds →
    ∃ t, exec (.absorb bytes) s = .next t ∧ t.fsm = .absorbing ∧
      t.totalLen = s.totalLen + BitVec.ofNat 128 bytes.length ∧
      (∀ i, i ≠ s.widx.toNat → i ≠ (s.widx.toNat + 1) % wordCount s.ds → getWord t.w i = getWord s.w i) ∧
      (s.totalLen.toNat % 8 + bytes.length ≤ 8 → ∀ i, i ≠ s.widx.toNat → getWord t.w i = getWord s.w i) ∧
      SameConfig s t ∧ SameOutputs s t ∧ SamePort s t

/-- The model's choice (log 11): the microarchitectural registers `NXT`, `ROUND`, `PHASE`, `PT` and `TACC` are written by
FINALIZE alone; every other accepted word leaves them. -/
def Obligations.EngineRegistersChangeOnlyInFinalize : Prop :=
  ∀ (w : CmdWord) (s t : State), decode w ≠ .legal .finalize → execute w s = .next t → SameMicro s t

/-- 44_command_absorb.md R154: ABSORB of no bytes changes nothing but `STATE`, and no later digest. -/
def Obligations.AbsorbNothing : Prop :=
  (∀ s : State, AcceptsMessage s → exec (.absorb []) s = .next { s with fsm := .absorbing }) ∧
  (∀ (s : State) (ds : DigestSize) (key : Option Word), ∃ t,
    execAll [initCommand ds key, .absorb [], .finalize] s = .next t ∧
    execAll [initCommand ds key, .finalize] s = .next t ∧ t.fsm = .finalized)

/-- 44_command_absorb.md R153: two sequences of ABSORBs whose bytes concatenate to the same message leave the same state, for
every split. -/
def Obligations.ChunkingTransparency : Prop :=
  ∀ (s : State) (bss css : List (List Byte)), AcceptsMessage s → bss ≠ [] → css ≠ [] → bss.flatten = css.flatten →
    ∃ t, execAll (bss.map .absorb) s = .next t ∧ execAll (css.map .absorb) s = .next t

/-- 44_command_absorb.md R152: the registers after any sequence of ABSORBs from `FRESH` whose bytes concatenate to a message of
fewer than 2^128 bytes. -/
def Obligations.AbsorbedRegistersTrackMessage : Prop :=
  ∀ (s : State) (bss : List (List Byte)), Inv s → s.fsm = .fresh → bss.flatten.length < 2 ^ 128 →
    ∃ t, execAll (bss.map .absorb) s = .next t ∧ t.ds = s.ds ∧ t.seed = s.seed ∧ Tracks bss.flatten t

/-- 44_command_absorb.md R156: the length counter wraps modulo 2^128 and the noise multiplier modulo 2^64, where the byte adds
nothing to `NACC` and is still XORed into `W`; neither is a fault. -/
def Obligations.LengthWrapsSilently : Prop :=
  ∀ (s : State) (b : Byte), AcceptsMessage s → s.widx.toNat < wordCount s.ds →
    ∃ t, exec (.absorb [b]) s = .next t ∧ t.fsm = .absorbing ∧ t.faultCause = s.faultCause ∧
      (s.totalLen = BitVec.allOnes 128 → t.totalLen = 0) ∧
      (s.totalLen.setWidth 64 = BitVec.allOnes 64 → t.nacc = rotl s.nacc 7 ∧
        getWord t.w s.widx.toNat = getWord s.w s.widx.toNat ^^^ b.setWidth 64)

/-! ## The three pure functions -/

/-- 00_scope.md R11: rotations take their amount modulo 64, a rotation by 0 is the identity, and a right rotation is the
complementary left rotation. -/
def Obligations.RotationAmountsModulo64 : Prop :=
  ∀ (x : Word) (n : Nat), rotl x 0 = x ∧ rotr x 0 = x ∧ rotl x n = x.rotateLeft n ∧ rotr x n = x.rotateRight n ∧
    (n % 64 ≠ 0 → rotr x n = rotl x (64 - n % 64)) ∧ rotr (rotl x n) n = x

/-- 40_noise_generator.md R101: the noise algorithm as a left fold over the indexed bytes. -/
def Obligations.NoiseAlgorithm : Prop :=
  ∀ (input : List Byte) (round : Nat) (prime : Word) (key : Option Word),
    noise input round prime key =
      rotl (input.zipIdx.foldl (fun acc p => rotl (acc + p.1.setWidth 64 * BitVec.ofNat 64 (p.2 + 1)) 7) (key.getD prime)
        ^^^ BitVec.ofNat 64 round) (round % 64)

/-- 40_noise_generator.md R102: the noise is `NoisePost` of `NoiseAcc`, `NoiseAcc` can be computed a byte at a time, and ABSORB
applies exactly that step with index `TOTAL_LEN[63:0]`. -/
def Obligations.NoiseSplitsAtRound : Prop :=
  (∀ (input : List Byte) (round : Nat) (prime : Word) (key : Option Word),
    noise input round prime key = noisePost (noiseAcc input (key.getD prime)) round) ∧
  (∀ (m : List Byte) (b : Byte) (seed : Word), noiseAcc (m ++ [b]) seed = noiseStep (noiseAcc m seed) b m.length) ∧
  (∀ (s : State) (b : Byte), (absorbByte s b).nacc = noiseStep s.nacc b (s.totalLen.setWidth 64).toNat)

/-- 40_noise_generator.md R103: empty input skips the byte loop and still applies the round, with the rule's values. -/
def Obligations.NoiseOfEmptyInput : Prop :=
  (∀ seed : Word, noiseAcc [] seed = seed) ∧
  (∀ (round : Nat) (prime : Word), noise [] round prime none = rotl (prime ^^^ BitVec.ofNat 64 round) (round % 64)) ∧
  noise [] 0 prime none = 0x9E3779B97F4A7C15 ∧ noise [] 1 prime none = 0x3C6EF372FE94F829 ∧
  noise [] 63 prime none = 0x4F1BBCDCBFA53E15 ∧ noise [] 64 prime none = 0x9E3779B97F4A7C55 ∧
  noise [] 65 prime none = 0x3C6EF372FE94F8A9 ∧ noise [] 0 prime (some 0) = 0 ∧ noise [] 1 prime (some 0) = 2

/-- 41_constant_generator.md R111: the round constant, and the form the hardware evaluates. -/
def Obligations.RoundConstantFormula : Prop :=
  ∀ (round hl : Nat) (input : List Byte) (key : Option Word),
    roundConstant round input hl key =
      rotl 0x9E3779B97F4A7C15 (round % 64) * rotl (BitVec.ofNat 64 round + 0xABCDEF1234567890) 32
        + rotr (BitVec.ofNat 64 round + 0xABCDEF1234567890) 16 + rotl 0x7FFFFFFFFFFFFFFF (round % 32)
        + rotl (noise input round 0x9E3779B97F4A7C15 key) 8 + BitVec.ofNat 64 hl ∧
    roundConstant round input hl key = rc round (noiseAcc input (key.getD 0x9E3779B97F4A7C15)) hl

/-- 42_arx_round_engine.md R121: every new word from the frozen old array, for the three word counts; words past the array are
untouched. -/
def Obligations.RoundFormula : Prop :=
  ∀ (ds : DigestSize) (old : Words) (c : Word),
    (∀ i, i < wordCount ds → getWord (arxRound (wordCount ds) old c) i =
      rotl (rotl (getWord old i + c + getWord old ((i + 3) % wordCount ds)) 29
        + (getWord old ((i + 1) % wordCount ds) &&& getWord old ((i + 2) % wordCount ds))
        + rotr (getWord old ((i + 4) % wordCount ds)) 17) 23) ∧
    (∀ i, wordCount ds ≤ i → getWord (arxRound (wordCount ds) old c) i = getWord old i)

/-- 42_arx_round_engine.md R123: `new[i]` depends on `old[i]` and its four neighbours only, and the five indices are distinct. -/
def Obligations.RoundReadsFourNeighbours : Prop :=
  ∀ (ds : DigestSize) (c : Word) (v w : Words) (i : Nat), i < wordCount ds →
    ((∀ k, k < 5 → getWord v ((i + k) % wordCount ds) = getWord w ((i + k) % wordCount ds)) →
      getWord (arxRound (wordCount ds) v c) i = getWord (arxRound (wordCount ds) w c) i) ∧
    (∀ j k, j < 5 → k < 5 → (i + j) % wordCount ds = (i + k) % wordCount ds → j = k)

/-- 42_arx_round_engine.md R127 (a), (b): a state whose words are all equal stays such a state through any number of rounds;
and the zero state is a fixed point of the round with constant 0. -/
def Obligations.EqualWordsStayEqual : Prop :=
  (∀ (ds : DigestSize) (cs : List Word) (x : Word) (old : Words), (∀ i, i < wordCount ds → getWord old i = x) →
    ∃ y, ∀ i, i < wordCount ds → getWord (arxRounds (wordCount ds) old cs) i = y) ∧
  (∀ (ds : DigestSize) (old : Words), (∀ i, i < wordCount ds → getWord old i = 0) →
    ∀ i, i < wordCount ds → getWord (arxRound (wordCount ds) old 0) i = 0 ∧
      getWord (arxRound (wordCount ds) old 1) i = 0x0010000000000000)

/-! ## FINALIZE -/

/-- 45_command_finalize.md R165: FINALIZE in every `STATE`. From a configured `FRESH` or `ABSORBING` it completes: main rounds,
length mix, padded tail, tail noise, extra rounds, squeeze, with its frame; in `FINALIZED` and `FAULT` nothing changes; not
configured it faults; with a non-zero `arg` the word is illegal. -/
def Obligations.FinalizeResult : Prop :=
  (∀ s : State, AcceptsMessage s →
    ∃ t, exec .finalize s = .next t ∧ t.fsm = .finalized ∧ t.digestValid = true ∧
      t.pt = paddedTail s.tail s.totalLen ∧ t.tacc = noiseAcc (ptBytes t.pt) s.seed ∧
      (∀ i, i < wordCount s.ds → getWord t.w i = getWord
        (arxRounds (wordCount s.ds)
          (xorWord (arxRounds (wordCount s.ds) s.w (mainConstants s)) 0
            ((s.totalLen <<< 3).setWidth 64 ^^^ 0x0000000000000080#64))
          (extraConstants s t.tacc)) i) ∧
      t.digest = squeeze s.ds t.w ∧ SameWordsFrom (wordCount s.ds) s t ∧
      SameConfig s t ∧ SameMessage s t ∧ t.faultCause = s.faultCause ∧ SamePort s t) ∧
  (∀ s : State, s.fsm = .fault → exec .finalize s = .next s) ∧
  (∀ s : State, s.fsm ≠ .fault → s.cfgValid = false → exec .finalize s =
    .next { s with faultCause := .notConfigured, fsm := .fault, digest := 0, digestValid := false }) ∧
  (∀ s : State, s.cfgValid = true → s.fsm = .finalized → exec .finalize s = .next s) ∧
  (∀ w : CmdWord, opField w = 0x3#4 → w.extractLsb' 64 4 ≠ 0x0#4 → decode w = .illegal .illegalField)

/-- 45_command_finalize.md R173 and 20_memory.md R59: digest byte `k` is byte `k mod 8` of word `floor(k/8)`, so the digest is
the words in index order; the bytes past OUTLEN are 0. -/
def Obligations.SqueezeLayout : Prop :=
  ∀ (ds : DigestSize) (w : Words),
    (∀ k, k < outLen ds → digestByte (squeeze ds w) k = laneByte (getWord w (k / 8 % wordCount ds)) (k % 8)) ∧
    (∀ i, i < outLen ds / 8 → (squeeze ds w).extractLsb' (448 - 64 * i) 64 = getWord w i) ∧
    (∀ k, outLen ds ≤ k → k < 64 → digestByte (squeeze ds w) k = 0)

/-- 45_command_finalize.md R170: the padded tail is `pad` of the `t` tail bytes, where the lanes of `TAIL` from `t` on are 0
(10_state.md R30): the tail bytes, `0x80`, `7 - t` zero bytes, the 16-byte bit length. -/
def Obligations.PaddedTailLayout : Prop :=
  ∀ (tail : Word) (totalLen : BitVec 128),
    (∀ k, totalLen.toNat % 8 ≤ k → k < 8 → laneByte tail k = 0) →
    ptBytes (paddedTail tail totalLen) =
      (be64 tail).take (totalLen.toNat % 8) ++ [0x80#8] ++ List.replicate (7 - totalLen.toNat % 8) 0#8
        ++ be128 (totalLen <<< 3) ∧
    ptBytes (paddedTail tail totalLen) = pad ((be64 tail).take (totalLen.toNat % 8)) totalLen

/-- 45_command_finalize.md R177: `pad`, its least number of zero bytes, and the length of the result. -/
def Obligations.PadRule : Prop :=
  ∀ (data : List Byte) (totalLen : BitVec 128),
    (∃ z, pad data totalLen = data ++ [0x80#8] ++ List.replicate z 0#8 ++ be128 (BitVec.ofNat 128 (8 * totalLen.toNat)) ∧
      (data.length + 1 + z) % 8 = 0 ∧ ∀ z', (data.length + 1 + z') % 8 = 0 → z ≤ z') ∧
    (pad data totalLen).length % 8 = 0 ∧ data.length + 17 ≤ (pad data totalLen).length

/-- 45_command_finalize.md R175: FINALIZE in `FINALIZED` changes no register; ABSORB then faults with cause 4; RESET or INIT is
what allows further absorption. -/
def Obligations.FinalizeIdempotent : Prop :=
  ∀ s : State, Inv s → s.fsm = .finalized →
    exec .finalize s = .next s ∧
    (∀ bs, ∃ t, exec (.absorb bs) s = .next t ∧ t.fsm = .fault ∧ t.faultCause = .absorbAfterFinalize ∧
      t.digest = 0 ∧ t.digestValid = false) ∧
    (∃ t, exec .reset s = .next t ∧ AcceptsMessage t) ∧
    (∀ ds e k, ∃ t, exec (.init ds e k) s = .next t ∧ AcceptsMessage t)

/-- 45_command_finalize.md R176: for every INIT, or accepted RESET, then ABSORBs whose bytes concatenate to a message of fewer
than 2^125 bytes in any split, then FINALIZE, from every state: the digest port shows `Digest(ds, key, M)`. -/
def Obligations.DigestOfEverySplit : Prop :=
  (∀ (s : State) (ds : DigestSize) (key : Option Word) (bss : List (List Byte)), bss.flatten.length < 2 ^ 125 →
    ∃ t, execAll (initCommand ds key :: (bss.map .absorb ++ [.finalize])) s = .next t ∧ t.fsm = .finalized ∧
      t.digestValid = true ∧ digestBytes t (outLen ds) = digestOf ds key bss.flatten ∧
      ∀ k, outLen ds ≤ k → k < 64 → digestByte t.digest k = 0) ∧
  (∀ (s : State) (bss : List (List Byte)), s.cfgValid = true → bss.flatten.length < 2 ^ 125 →
    ∃ t, execAll (.reset :: (bss.map .absorb ++ [.finalize])) s = .next t ∧ t.fsm = .finalized ∧
      t.digestValid = true ∧ digestBytes t (outLen s.ds) = digestOf s.ds s.keyOption bss.flatten ∧
      ∀ k, outLen s.ds ≤ k → k < 64 → digestByte t.digest k = 0)

/-- 45_command_finalize.md R178 (b): the digest has exactly OUTLEN bytes. -/
def Obligations.DigestHasFixedLength : Prop :=
  ∀ (ds : DigestSize) (key : Option Word) (m : List Byte), (digestOf ds key m).length = outLen ds

/-- 30_encoding.md R88: `ABSORBX m` is ABSORBs of at most 8 bytes each that deliver exactly `m`, full groups first, and one
ABSORB of nothing for the empty message. -/
def Obligations.AbsorbXDeliversMessage : Prop :=
  ∀ m : List Byte, ∃ bss : List (List Byte), absorbX m = bss.map .absorb ∧ bss ≠ [] ∧ bss.flatten = m ∧
    (∀ bs ∈ bss, bs.length ≤ 8) ∧ (m = [] → bss = [[]]) ∧
    (m ≠ [] → bss.length = (m.length + 7) / 8 ∧ ∀ q, 8 * (q + 1) ≤ m.length → bss[q]? = some ((m.drop (8 * q)).take 8))

/-- 30_encoding.md R87: a line the assembler takes gives a well-formed command, and the lines it refuses are exactly those with
another size, `n` > 8, or a number that does not fit 64 bits. -/
def Obligations.AssemblerRefusesWhatDoesNotFit : Prop :=
  ∀ l : AsmLine,
    (∀ i, assembleLine l = some i → i.wellFormed = true) ∧
    (assembleLine l = none ↔
      (∃ size key, l = .init size key ∧ (size ∉ [128, 256, 512] ∨ ∃ k, key = some k ∧ 2 ^ 64 ≤ k)) ∨
      (∃ n data, l = .absorb n data ∧ (8 < n ∨ 2 ^ 64 ≤ data)))

/-! ## Invariants and whole-machine rules -/

/-- 10_state.md R37 at the reset state. -/
def Obligations.InvHoldsAtReset : Prop := Inv State.reset

/-- 10_state.md R37: every edge keeps the invariant, from every state that has it, whatever the host drives and whatever the
latencies. -/
def Obligations.EveryStepKeepsInv : Prop :=
  ∀ s t : State, Inv s → step s = .next t → Inv t

/-- 10_state.md R26, R27: the configuration (`CFG_VALID`, `DS`, `KEY_EN`, `KEY`) changes at an edge only by hardware reset or by a
completing INIT. -/
def Obligations.ConfigurationChangesOnlyByInit : Prop :=
  ∀ s t : State, step s = .next t → SameConfig s t ∨ s.sampled.rst = true ∨
    ∃ w ds e k, completing s = some w ∧ decode w = .legal (.init ds e k)

/-- 70_reset_and_hazards.md R237: the digest, and every other architectural register in use, is a function of the command words
since the last INIT alone: from any two states whatever, illegal words included. -/
def Obligations.NoHiddenInputs : Prop :=
  ∀ (w : CmdWord) (ws : List CmdWord) (s s' : State) (ds : DigestSize) (e : Bool) (k : Word),
    decode w = .legal (.init ds e k) →
    ∃ t t', executeAll (w :: ws) s = .next t ∧ executeAll (w :: ws) s' = .next t' ∧ AgreeInUse t t'

/-- 10_state.md R21, 43_commands_init_reset.md R139: no accepted word writes a word at or past N(DS). -/
def Obligations.UnusedWordsNeverWritten : Prop :=
  ∀ (w : CmdWord) (s t : State), s.widx.toNat < wordCount s.ds → execute w s = .next t →
    SameWordsFrom (wordCount t.ds) s t

/-- 10_state.md R27: the key has exactly one use, the seed: FINALIZE under another key with the same seed, and ABSORB under any
other key, do the same. -/
def Obligations.KeyEntersOnlyAsSeed : Prop :=
  (∀ (s t : State) (e : Bool) (k : Word), AcceptsMessage s → seedOf e k = s.seed → exec .finalize s = .next t →
    exec .finalize { s with keyEn := e, key := k } = .next { t with keyEn := e, key := k }) ∧
  (∀ (s t : State) (bs : List Byte) (e : Bool) (k : Word), exec (.absorb bs) s = .next t →
    exec (.absorb bs) { s with keyEn := e, key := k } = .next { t with keyEn := e, key := k })

/-- 46_cteq_helper.md R191: `ct_eq(a, b)` is true if and only if a and b are the same byte string. -/
def Obligations.CtEqIsEquality : Prop := ∀ a b : List Byte, ctEq a b = true ↔ a = b
end

