-- ==== Sys2Proof/Laws/State.lean ====
section
/-! SUPPORT. Every field after every state update: one lemma per field per update, true by unfolding the update. -/

namespace Sys2Proof.Machine

@[simp] theorem raiseFault_w (c : Cause) (s : State) : (raiseFault c s).w = s.w := by dsimp only [raiseFault]
@[simp] theorem raiseFault_fsm (c : Cause) (s : State) : (raiseFault c s).fsm = .fault := by dsimp only [raiseFault]
@[simp] theorem raiseFault_cfgValid (c : Cause) (s : State) :
    (raiseFault c s).cfgValid = s.cfgValid := by dsimp only [raiseFault]
@[simp] theorem raiseFault_ds (c : Cause) (s : State) : (raiseFault c s).ds = s.ds := by dsimp only [raiseFault]
@[simp] theorem raiseFault_keyEn (c : Cause) (s : State) :
    (raiseFault c s).keyEn = s.keyEn := by dsimp only [raiseFault]
@[simp] theorem raiseFault_key (c : Cause) (s : State) : (raiseFault c s).key = s.key := by dsimp only [raiseFault]
@[simp] theorem raiseFault_totalLen (c : Cause) (s : State) :
    (raiseFault c s).totalLen = s.totalLen := by dsimp only [raiseFault]
@[simp] theorem raiseFault_widx (c : Cause) (s : State) : (raiseFault c s).widx = s.widx := by dsimp only [raiseFault]
@[simp] theorem raiseFault_tail (c : Cause) (s : State) : (raiseFault c s).tail = s.tail := by dsimp only [raiseFault]
@[simp] theorem raiseFault_nacc (c : Cause) (s : State) : (raiseFault c s).nacc = s.nacc := by dsimp only [raiseFault]
@[simp] theorem raiseFault_digest (c : Cause) (s : State) : (raiseFault c s).digest = 0 := by dsimp only [raiseFault]
@[simp] theorem raiseFault_digestValid (c : Cause) (s : State) :
    (raiseFault c s).digestValid = false := by dsimp only [raiseFault]
@[simp] theorem raiseFault_faultCause (c : Cause) (s : State) :
    (raiseFault c s).faultCause = c := by dsimp only [raiseFault]
@[simp] theorem raiseFault_nxt (c : Cause) (s : State) : (raiseFault c s).nxt = s.nxt := by dsimp only [raiseFault]
@[simp] theorem raiseFault_round (c : Cause) (s : State) :
    (raiseFault c s).round = s.round := by dsimp only [raiseFault]
@[simp] theorem raiseFault_phase (c : Cause) (s : State) :
    (raiseFault c s).phase = s.phase := by dsimp only [raiseFault]
@[simp] theorem raiseFault_pt (c : Cause) (s : State) : (raiseFault c s).pt = s.pt := by dsimp only [raiseFault]
@[simp] theorem raiseFault_tacc (c : Cause) (s : State) : (raiseFault c s).tacc = s.tacc := by dsimp only [raiseFault]
@[simp] theorem raiseFault_inFlight (c : Cause) (s : State) :
    (raiseFault c s).inFlight = s.inFlight := by dsimp only [raiseFault]
@[simp] theorem raiseFault_inputs (c : Cause) (s : State) :
    (raiseFault c s).inputs = s.inputs := by dsimp only [raiseFault]
@[simp] theorem raiseFault_lat (c : Cause) (s : State) : (raiseFault c s).lat = s.lat := by dsimp only [raiseFault]
@[simp] theorem raiseFault_draws (c : Cause) (s : State) :
    (raiseFault c s).draws = s.draws := by dsimp only [raiseFault]
@[simp] theorem raiseFault_wordsInUse (c : Cause) (s : State) :
    (raiseFault c s).wordsInUse = s.wordsInUse := by dsimp only [raiseFault, State.wordsInUse]
@[simp] theorem raiseFault_mainRoundCount (c : Cause) (s : State) :
    (raiseFault c s).mainRoundCount = s.mainRoundCount := by dsimp only [raiseFault, State.mainRoundCount]
@[simp] theorem raiseFault_seed (c : Cause) (s : State) :
    (raiseFault c s).seed = s.seed := by dsimp only [raiseFault, State.seed]
@[simp] theorem raiseFault_lane (c : Cause) (s : State) :
    (raiseFault c s).lane = s.lane := by dsimp only [raiseFault, State.lane]

@[simp] theorem enterFresh_w (s : State) :
    (enterFresh s).w = fillWords s.wordsInUse (iv s.ds) s.w := by dsimp only [enterFresh]
@[simp] theorem enterFresh_fsm (s : State) : (enterFresh s).fsm = .fresh := by dsimp only [enterFresh]
@[simp] theorem enterFresh_cfgValid (s : State) : (enterFresh s).cfgValid = s.cfgValid := by dsimp only [enterFresh]
@[simp] theorem enterFresh_ds (s : State) : (enterFresh s).ds = s.ds := by dsimp only [enterFresh]
@[simp] theorem enterFresh_keyEn (s : State) : (enterFresh s).keyEn = s.keyEn := by dsimp only [enterFresh]
@[simp] theorem enterFresh_key (s : State) : (enterFresh s).key = s.key := by dsimp only [enterFresh]
@[simp] theorem enterFresh_totalLen (s : State) : (enterFresh s).totalLen = 0 := by dsimp only [enterFresh]
@[simp] theorem enterFresh_widx (s : State) : (enterFresh s).widx = 0 := by dsimp only [enterFresh]
@[simp] theorem enterFresh_tail (s : State) : (enterFresh s).tail = 0 := by dsimp only [enterFresh]
@[simp] theorem enterFresh_nacc (s : State) : (enterFresh s).nacc = s.seed := by dsimp only [enterFresh]
@[simp] theorem enterFresh_digest (s : State) : (enterFresh s).digest = 0 := by dsimp only [enterFresh]
@[simp] theorem enterFresh_digestValid (s : State) : (enterFresh s).digestValid = false := by dsimp only [enterFresh]
@[simp] theorem enterFresh_faultCause (s : State) : (enterFresh s).faultCause = .none := by dsimp only [enterFresh]
@[simp] theorem enterFresh_nxt (s : State) : (enterFresh s).nxt = s.nxt := by dsimp only [enterFresh]
@[simp] theorem enterFresh_round (s : State) : (enterFresh s).round = s.round := by dsimp only [enterFresh]
@[simp] theorem enterFresh_phase (s : State) : (enterFresh s).phase = s.phase := by dsimp only [enterFresh]
@[simp] theorem enterFresh_pt (s : State) : (enterFresh s).pt = s.pt := by dsimp only [enterFresh]
@[simp] theorem enterFresh_tacc (s : State) : (enterFresh s).tacc = s.tacc := by dsimp only [enterFresh]
@[simp] theorem enterFresh_inFlight (s : State) : (enterFresh s).inFlight = s.inFlight := by dsimp only [enterFresh]
@[simp] theorem enterFresh_inputs (s : State) : (enterFresh s).inputs = s.inputs := by dsimp only [enterFresh]
@[simp] theorem enterFresh_lat (s : State) : (enterFresh s).lat = s.lat := by dsimp only [enterFresh]
@[simp] theorem enterFresh_draws (s : State) : (enterFresh s).draws = s.draws := by dsimp only [enterFresh]
@[simp] theorem enterFresh_wordsInUse (s : State) :
    (enterFresh s).wordsInUse = s.wordsInUse := by dsimp only [enterFresh, State.wordsInUse]
@[simp] theorem enterFresh_mainRoundCount (s : State) :
    (enterFresh s).mainRoundCount = s.mainRoundCount := by dsimp only [enterFresh, State.mainRoundCount]
@[simp] theorem enterFresh_seed (s : State) : (enterFresh s).seed = s.seed := by dsimp only [enterFresh, State.seed]

@[simp] theorem hardwareReset_w (s : State) :
    (hardwareReset s).w = buildWords (Config.unspecifiedW s.draws) := by dsimp only [hardwareReset]
@[simp] theorem hardwareReset_fsm (s : State) : (hardwareReset s).fsm = .unconf := by dsimp only [hardwareReset]
@[simp] theorem hardwareReset_cfgValid (s : State) : (hardwareReset s).cfgValid = false := by dsimp only [hardwareReset]
@[simp] theorem hardwareReset_ds (s : State) : (hardwareReset s).ds = .d128 := by dsimp only [hardwareReset]
@[simp] theorem hardwareReset_keyEn (s : State) : (hardwareReset s).keyEn = false := by dsimp only [hardwareReset]
@[simp] theorem hardwareReset_key (s : State) : (hardwareReset s).key = 0 := by dsimp only [hardwareReset]
@[simp] theorem hardwareReset_totalLen (s : State) : (hardwareReset s).totalLen = 0 := by dsimp only [hardwareReset]
@[simp] theorem hardwareReset_widx (s : State) : (hardwareReset s).widx = 0 := by dsimp only [hardwareReset]
@[simp] theorem hardwareReset_tail (s : State) : (hardwareReset s).tail = 0 := by dsimp only [hardwareReset]
@[simp] theorem hardwareReset_nacc (s : State) : (hardwareReset s).nacc = 0 := by dsimp only [hardwareReset]
@[simp] theorem hardwareReset_digest (s : State) : (hardwareReset s).digest = 0 := by dsimp only [hardwareReset]
@[simp] theorem hardwareReset_digestValid (s : State) :
    (hardwareReset s).digestValid = false := by dsimp only [hardwareReset]
@[simp] theorem hardwareReset_faultCause (s : State) :
    (hardwareReset s).faultCause = .none := by dsimp only [hardwareReset]
@[simp] theorem hardwareReset_nxt (s : State) :
    (hardwareReset s).nxt = buildWords (Config.unspecifiedNxt s.draws) := by dsimp only [hardwareReset]
@[simp] theorem hardwareReset_round (s : State) :
    (hardwareReset s).round = Config.unspecifiedRound s.draws := by dsimp only [hardwareReset]
@[simp] theorem hardwareReset_phase (s : State) :
    (hardwareReset s).phase = Config.unspecifiedPhase s.draws := by dsimp only [hardwareReset]
@[simp] theorem hardwareReset_pt (s : State) :
    (hardwareReset s).pt = Config.unspecifiedPt s.draws := by dsimp only [hardwareReset]
@[simp] theorem hardwareReset_tacc (s : State) :
    (hardwareReset s).tacc = Config.unspecifiedTacc s.draws := by dsimp only [hardwareReset]
@[simp] theorem hardwareReset_inFlight (s : State) : (hardwareReset s).inFlight = none := by dsimp only [hardwareReset]
@[simp] theorem hardwareReset_inputs (s : State) : (hardwareReset s).inputs = s.inputs := by dsimp only [hardwareReset]
@[simp] theorem hardwareReset_lat (s : State) : (hardwareReset s).lat = s.lat := by dsimp only [hardwareReset]
@[simp] theorem hardwareReset_draws (s : State) : (hardwareReset s).draws = s.draws + 1 := by dsimp only [hardwareReset]

@[simp] theorem configure_w (d : DigestSize) (e : Bool) (k : Word) (s : State) :
    (configure d e k s).w = s.w := by dsimp only [configure]
@[simp] theorem configure_fsm (d : DigestSize) (e : Bool) (k : Word) (s : State) :
    (configure d e k s).fsm = s.fsm := by dsimp only [configure]
@[simp] theorem configure_cfgValid (d : DigestSize) (e : Bool) (k : Word) (s : State) :
    (configure d e k s).cfgValid = true := by dsimp only [configure]
@[simp] theorem configure_ds (d : DigestSize) (e : Bool) (k : Word) (s : State) :
    (configure d e k s).ds = d := by dsimp only [configure]
@[simp] theorem configure_keyEn (d : DigestSize) (e : Bool) (k : Word) (s : State) :
    (configure d e k s).keyEn = e := by dsimp only [configure]
@[simp] theorem configure_key (d : DigestSize) (e : Bool) (k : Word) (s : State) :
    (configure d e k s).key = if e then k else 0 := by dsimp only [configure]
@[simp] theorem configure_totalLen (d : DigestSize) (e : Bool) (k : Word) (s : State) :
    (configure d e k s).totalLen = s.totalLen := by dsimp only [configure]
@[simp] theorem configure_widx (d : DigestSize) (e : Bool) (k : Word) (s : State) :
    (configure d e k s).widx = s.widx := by dsimp only [configure]
@[simp] theorem configure_tail (d : DigestSize) (e : Bool) (k : Word) (s : State) :
    (configure d e k s).tail = s.tail := by dsimp only [configure]
@[simp] theorem configure_nacc (d : DigestSize) (e : Bool) (k : Word) (s : State) :
    (configure d e k s).nacc = s.nacc := by dsimp only [configure]
@[simp] theorem configure_digest (d : DigestSize) (e : Bool) (k : Word) (s : State) :
    (configure d e k s).digest = s.digest := by dsimp only [configure]
@[simp] theorem configure_digestValid (d : DigestSize) (e : Bool) (k : Word) (s : State) :
    (configure d e k s).digestValid = s.digestValid := by dsimp only [configure]
@[simp] theorem configure_faultCause (d : DigestSize) (e : Bool) (k : Word) (s : State) :
    (configure d e k s).faultCause = s.faultCause := by dsimp only [configure]
@[simp] theorem configure_nxt (d : DigestSize) (e : Bool) (k : Word) (s : State) :
    (configure d e k s).nxt = s.nxt := by dsimp only [configure]
@[simp] theorem configure_round (d : DigestSize) (e : Bool) (k : Word) (s : State) :
    (configure d e k s).round = s.round := by dsimp only [configure]
@[simp] theorem configure_phase (d : DigestSize) (e : Bool) (k : Word) (s : State) :
    (configure d e k s).phase = s.phase := by dsimp only [configure]
@[simp] theorem configure_pt (d : DigestSize) (e : Bool) (k : Word) (s : State) :
    (configure d e k s).pt = s.pt := by dsimp only [configure]
@[simp] theorem configure_tacc (d : DigestSize) (e : Bool) (k : Word) (s : State) :
    (configure d e k s).tacc = s.tacc := by dsimp only [configure]
@[simp] theorem configure_inFlight (d : DigestSize) (e : Bool) (k : Word) (s : State) :
    (configure d e k s).inFlight = s.inFlight := by dsimp only [configure]
@[simp] theorem configure_inputs (d : DigestSize) (e : Bool) (k : Word) (s : State) :
    (configure d e k s).inputs = s.inputs := by dsimp only [configure]
@[simp] theorem configure_lat (d : DigestSize) (e : Bool) (k : Word) (s : State) :
    (configure d e k s).lat = s.lat := by dsimp only [configure]
@[simp] theorem configure_draws (d : DigestSize) (e : Bool) (k : Word) (s : State) :
    (configure d e k s).draws = s.draws := by dsimp only [configure]
@[simp] theorem configure_lane (d : DigestSize) (e : Bool) (k : Word) (s : State) :
    (configure d e k s).lane = s.lane := by dsimp only [configure, State.lane]

@[simp] theorem absorbByte_w (s : State) (b : Byte) :
    (absorbByte s b).w = xorWord s.w s.widx.toNat (placeByte b s.lane) := by dsimp only [absorbByte]
@[simp] theorem absorbByte_fsm (s : State) (b : Byte) : (absorbByte s b).fsm = s.fsm := by dsimp only [absorbByte]
@[simp] theorem absorbByte_cfgValid (s : State) (b : Byte) :
    (absorbByte s b).cfgValid = s.cfgValid := by dsimp only [absorbByte]
@[simp] theorem absorbByte_ds (s : State) (b : Byte) : (absorbByte s b).ds = s.ds := by dsimp only [absorbByte]
@[simp] theorem absorbByte_keyEn (s : State) (b : Byte) : (absorbByte s b).keyEn = s.keyEn := by dsimp only [absorbByte]
@[simp] theorem absorbByte_key (s : State) (b : Byte) : (absorbByte s b).key = s.key := by dsimp only [absorbByte]
@[simp] theorem absorbByte_totalLen (s : State) (b : Byte) :
    (absorbByte s b).totalLen = s.totalLen + 1 := by dsimp only [absorbByte]
@[simp] theorem absorbByte_widx (s : State) (b : Byte) :
    (absorbByte s b).widx = if s.lane = 7 then nextWidx s.wordsInUse s.widx else s.widx := by dsimp only [absorbByte]
@[simp] theorem absorbByte_tail (s : State) (b : Byte) :
    (absorbByte s b).tail = if s.lane = 7 then 0 else s.tail ||| placeByte b s.lane := by dsimp only [absorbByte]
@[simp] theorem absorbByte_nacc (s : State) (b : Byte) :
    (absorbByte s b).nacc = noiseStep s.nacc b s.totalLen.toNat := by dsimp only [absorbByte]
@[simp] theorem absorbByte_digest (s : State) (b : Byte) :
    (absorbByte s b).digest = s.digest := by dsimp only [absorbByte]
@[simp] theorem absorbByte_digestValid (s : State) (b : Byte) :
    (absorbByte s b).digestValid = s.digestValid := by dsimp only [absorbByte]
@[simp] theorem absorbByte_faultCause (s : State) (b : Byte) :
    (absorbByte s b).faultCause = s.faultCause := by dsimp only [absorbByte]
@[simp] theorem absorbByte_nxt (s : State) (b : Byte) : (absorbByte s b).nxt = s.nxt := by dsimp only [absorbByte]
@[simp] theorem absorbByte_round (s : State) (b : Byte) : (absorbByte s b).round = s.round := by dsimp only [absorbByte]
@[simp] theorem absorbByte_phase (s : State) (b : Byte) : (absorbByte s b).phase = s.phase := by dsimp only [absorbByte]
@[simp] theorem absorbByte_pt (s : State) (b : Byte) : (absorbByte s b).pt = s.pt := by dsimp only [absorbByte]
@[simp] theorem absorbByte_tacc (s : State) (b : Byte) : (absorbByte s b).tacc = s.tacc := by dsimp only [absorbByte]
@[simp] theorem absorbByte_inFlight (s : State) (b : Byte) :
    (absorbByte s b).inFlight = s.inFlight := by dsimp only [absorbByte]
@[simp] theorem absorbByte_inputs (s : State) (b : Byte) :
    (absorbByte s b).inputs = s.inputs := by dsimp only [absorbByte]
@[simp] theorem absorbByte_lat (s : State) (b : Byte) : (absorbByte s b).lat = s.lat := by dsimp only [absorbByte]
@[simp] theorem absorbByte_draws (s : State) (b : Byte) : (absorbByte s b).draws = s.draws := by dsimp only [absorbByte]
@[simp] theorem absorbByte_wordsInUse (s : State) (b : Byte) :
    (absorbByte s b).wordsInUse = s.wordsInUse := by dsimp only [absorbByte, State.wordsInUse]
@[simp] theorem absorbByte_mainRoundCount (s : State) (b : Byte) :
    (absorbByte s b).mainRoundCount = s.mainRoundCount := by dsimp only [absorbByte, State.mainRoundCount]
@[simp] theorem absorbByte_seed (s : State) (b : Byte) :
    (absorbByte s b).seed = s.seed := by dsimp only [absorbByte, State.seed]

@[simp] theorem enterAbsorbing_w (s : State) : (enterAbsorbing s).w = s.w := by dsimp only [enterAbsorbing]
@[simp] theorem enterAbsorbing_fsm (s : State) : (enterAbsorbing s).fsm = .absorbing := by dsimp only [enterAbsorbing]
@[simp] theorem enterAbsorbing_cfgValid (s : State) :
    (enterAbsorbing s).cfgValid = s.cfgValid := by dsimp only [enterAbsorbing]
@[simp] theorem enterAbsorbing_ds (s : State) : (enterAbsorbing s).ds = s.ds := by dsimp only [enterAbsorbing]
@[simp] theorem enterAbsorbing_keyEn (s : State) : (enterAbsorbing s).keyEn = s.keyEn := by dsimp only [enterAbsorbing]
@[simp] theorem enterAbsorbing_key (s : State) : (enterAbsorbing s).key = s.key := by dsimp only [enterAbsorbing]
@[simp] theorem enterAbsorbing_totalLen (s : State) :
    (enterAbsorbing s).totalLen = s.totalLen := by dsimp only [enterAbsorbing]
@[simp] theorem enterAbsorbing_widx (s : State) : (enterAbsorbing s).widx = s.widx := by dsimp only [enterAbsorbing]
@[simp] theorem enterAbsorbing_tail (s : State) : (enterAbsorbing s).tail = s.tail := by dsimp only [enterAbsorbing]
@[simp] theorem enterAbsorbing_nacc (s : State) : (enterAbsorbing s).nacc = s.nacc := by dsimp only [enterAbsorbing]
@[simp] theorem enterAbsorbing_digest (s : State) :
    (enterAbsorbing s).digest = s.digest := by dsimp only [enterAbsorbing]
@[simp] theorem enterAbsorbing_digestValid (s : State) :
    (enterAbsorbing s).digestValid = s.digestValid := by dsimp only [enterAbsorbing]
@[simp] theorem enterAbsorbing_faultCause (s : State) :
    (enterAbsorbing s).faultCause = s.faultCause := by dsimp only [enterAbsorbing]
@[simp] theorem enterAbsorbing_nxt (s : State) : (enterAbsorbing s).nxt = s.nxt := by dsimp only [enterAbsorbing]
@[simp] theorem enterAbsorbing_round (s : State) : (enterAbsorbing s).round = s.round := by dsimp only [enterAbsorbing]
@[simp] theorem enterAbsorbing_phase (s : State) : (enterAbsorbing s).phase = s.phase := by dsimp only [enterAbsorbing]
@[simp] theorem enterAbsorbing_pt (s : State) : (enterAbsorbing s).pt = s.pt := by dsimp only [enterAbsorbing]
@[simp] theorem enterAbsorbing_tacc (s : State) : (enterAbsorbing s).tacc = s.tacc := by dsimp only [enterAbsorbing]
@[simp] theorem enterAbsorbing_inFlight (s : State) :
    (enterAbsorbing s).inFlight = s.inFlight := by dsimp only [enterAbsorbing]
@[simp] theorem enterAbsorbing_inputs (s : State) :
    (enterAbsorbing s).inputs = s.inputs := by dsimp only [enterAbsorbing]
@[simp] theorem enterAbsorbing_lat (s : State) : (enterAbsorbing s).lat = s.lat := by dsimp only [enterAbsorbing]
@[simp] theorem enterAbsorbing_draws (s : State) : (enterAbsorbing s).draws = s.draws := by dsimp only [enterAbsorbing]
@[simp] theorem enterAbsorbing_wordsInUse (s : State) :
    (enterAbsorbing s).wordsInUse = s.wordsInUse := by dsimp only [enterAbsorbing, State.wordsInUse]
@[simp] theorem enterAbsorbing_mainRoundCount (s : State) :
    (enterAbsorbing s).mainRoundCount = s.mainRoundCount := by dsimp only [enterAbsorbing, State.mainRoundCount]
@[simp] theorem enterAbsorbing_seed (s : State) :
    (enterAbsorbing s).seed = s.seed := by dsimp only [enterAbsorbing, State.seed]
@[simp] theorem enterAbsorbing_lane (s : State) :
    (enterAbsorbing s).lane = s.lane := by dsimp only [enterAbsorbing, State.lane]

@[simp] theorem roundStep_w (p : BitVec 3) (a : Word) (s : State) (r : Nat) :
    (roundStep p a s r).w = arxRound s.wordsInUse s.w (rc r a (hashLength s.ds)) := by dsimp only [roundStep]
@[simp] theorem roundStep_fsm (p : BitVec 3) (a : Word) (s : State) (r : Nat) :
    (roundStep p a s r).fsm = s.fsm := by dsimp only [roundStep]
@[simp] theorem roundStep_cfgValid (p : BitVec 3) (a : Word) (s : State) (r : Nat) :
    (roundStep p a s r).cfgValid = s.cfgValid := by dsimp only [roundStep]
@[simp] theorem roundStep_ds (p : BitVec 3) (a : Word) (s : State) (r : Nat) :
    (roundStep p a s r).ds = s.ds := by dsimp only [roundStep]
@[simp] theorem roundStep_keyEn (p : BitVec 3) (a : Word) (s : State) (r : Nat) :
    (roundStep p a s r).keyEn = s.keyEn := by dsimp only [roundStep]
@[simp] theorem roundStep_key (p : BitVec 3) (a : Word) (s : State) (r : Nat) :
    (roundStep p a s r).key = s.key := by dsimp only [roundStep]
@[simp] theorem roundStep_totalLen (p : BitVec 3) (a : Word) (s : State) (r : Nat) :
    (roundStep p a s r).totalLen = s.totalLen := by dsimp only [roundStep]
@[simp] theorem roundStep_widx (p : BitVec 3) (a : Word) (s : State) (r : Nat) :
    (roundStep p a s r).widx = s.widx := by dsimp only [roundStep]
@[simp] theorem roundStep_tail (p : BitVec 3) (a : Word) (s : State) (r : Nat) :
    (roundStep p a s r).tail = s.tail := by dsimp only [roundStep]
@[simp] theorem roundStep_nacc (p : BitVec 3) (a : Word) (s : State) (r : Nat) :
    (roundStep p a s r).nacc = s.nacc := by dsimp only [roundStep]
@[simp] theorem roundStep_digest (p : BitVec 3) (a : Word) (s : State) (r : Nat) :
    (roundStep p a s r).digest = s.digest := by dsimp only [roundStep]
@[simp] theorem roundStep_digestValid (p : BitVec 3) (a : Word) (s : State) (r : Nat) :
    (roundStep p a s r).digestValid = s.digestValid := by dsimp only [roundStep]
@[simp] theorem roundStep_faultCause (p : BitVec 3) (a : Word) (s : State) (r : Nat) :
    (roundStep p a s r).faultCause = s.faultCause := by dsimp only [roundStep]
@[simp] theorem roundStep_nxt (p : BitVec 3) (a : Word) (s : State) (r : Nat) :
    (roundStep p a s r).nxt = fillWords s.wordsInUse (getWord (if Config.buffersSwap then s.w else arxRound s.wordsInUse s.w (rc r a (hashLength s.ds)))) s.nxt := by dsimp only [roundStep]
@[simp] theorem roundStep_round (p : BitVec 3) (a : Word) (s : State) (r : Nat) :
    (roundStep p a s r).round = BitVec.ofNat 8 r := by dsimp only [roundStep]
@[simp] theorem roundStep_phase (p : BitVec 3) (a : Word) (s : State) (r : Nat) :
    (roundStep p a s r).phase = p := by dsimp only [roundStep]
@[simp] theorem roundStep_pt (p : BitVec 3) (a : Word) (s : State) (r : Nat) :
    (roundStep p a s r).pt = s.pt := by dsimp only [roundStep]
@[simp] theorem roundStep_tacc (p : BitVec 3) (a : Word) (s : State) (r : Nat) :
    (roundStep p a s r).tacc = s.tacc := by dsimp only [roundStep]
@[simp] theorem roundStep_inFlight (p : BitVec 3) (a : Word) (s : State) (r : Nat) :
    (roundStep p a s r).inFlight = s.inFlight := by dsimp only [roundStep]
@[simp] theorem roundStep_inputs (p : BitVec 3) (a : Word) (s : State) (r : Nat) :
    (roundStep p a s r).inputs = s.inputs := by dsimp only [roundStep]
@[simp] theorem roundStep_lat (p : BitVec 3) (a : Word) (s : State) (r : Nat) :
    (roundStep p a s r).lat = s.lat := by dsimp only [roundStep]
@[simp] theorem roundStep_draws (p : BitVec 3) (a : Word) (s : State) (r : Nat) :
    (roundStep p a s r).draws = s.draws := by dsimp only [roundStep]
@[simp] theorem roundStep_wordsInUse (p : BitVec 3) (a : Word) (s : State) (r : Nat) :
    (roundStep p a s r).wordsInUse = s.wordsInUse := by dsimp only [roundStep, State.wordsInUse]
@[simp] theorem roundStep_mainRoundCount (p : BitVec 3) (a : Word) (s : State) (r : Nat) :
    (roundStep p a s r).mainRoundCount = s.mainRoundCount := by dsimp only [roundStep, State.mainRoundCount]
@[simp] theorem roundStep_seed (p : BitVec 3) (a : Word) (s : State) (r : Nat) :
    (roundStep p a s r).seed = s.seed := by dsimp only [roundStep, State.seed]
@[simp] theorem roundStep_lane (p : BitVec 3) (a : Word) (s : State) (r : Nat) :
    (roundStep p a s r).lane = s.lane := by dsimp only [roundStep, State.lane]

@[simp] theorem lengthMix_w (s : State) :
    (lengthMix s).w = xorWord s.w 0 (lengthMixWord (bitLength s.totalLen)) := by dsimp only [lengthMix]
@[simp] theorem lengthMix_fsm (s : State) : (lengthMix s).fsm = s.fsm := by dsimp only [lengthMix]
@[simp] theorem lengthMix_cfgValid (s : State) : (lengthMix s).cfgValid = s.cfgValid := by dsimp only [lengthMix]
@[simp] theorem lengthMix_ds (s : State) : (lengthMix s).ds = s.ds := by dsimp only [lengthMix]
@[simp] theorem lengthMix_keyEn (s : State) : (lengthMix s).keyEn = s.keyEn := by dsimp only [lengthMix]
@[simp] theorem lengthMix_key (s : State) : (lengthMix s).key = s.key := by dsimp only [lengthMix]
@[simp] theorem lengthMix_totalLen (s : State) : (lengthMix s).totalLen = s.totalLen := by dsimp only [lengthMix]
@[simp] theorem lengthMix_widx (s : State) : (lengthMix s).widx = s.widx := by dsimp only [lengthMix]
@[simp] theorem lengthMix_tail (s : State) : (lengthMix s).tail = s.tail := by dsimp only [lengthMix]
@[simp] theorem lengthMix_nacc (s : State) : (lengthMix s).nacc = s.nacc := by dsimp only [lengthMix]
@[simp] theorem lengthMix_digest (s : State) : (lengthMix s).digest = s.digest := by dsimp only [lengthMix]
@[simp] theorem lengthMix_digestValid (s : State) :
    (lengthMix s).digestValid = s.digestValid := by dsimp only [lengthMix]
@[simp] theorem lengthMix_faultCause (s : State) : (lengthMix s).faultCause = s.faultCause := by dsimp only [lengthMix]
@[simp] theorem lengthMix_nxt (s : State) : (lengthMix s).nxt = s.nxt := by dsimp only [lengthMix]
@[simp] theorem lengthMix_round (s : State) :
    (lengthMix s).round = BitVec.ofNat 8 s.mainRoundCount := by dsimp only [lengthMix]
@[simp] theorem lengthMix_phase (s : State) : (lengthMix s).phase = phaseMix := by dsimp only [lengthMix]
@[simp] theorem lengthMix_pt (s : State) : (lengthMix s).pt = s.pt := by dsimp only [lengthMix]
@[simp] theorem lengthMix_tacc (s : State) : (lengthMix s).tacc = s.tacc := by dsimp only [lengthMix]
@[simp] theorem lengthMix_inFlight (s : State) : (lengthMix s).inFlight = s.inFlight := by dsimp only [lengthMix]
@[simp] theorem lengthMix_inputs (s : State) : (lengthMix s).inputs = s.inputs := by dsimp only [lengthMix]
@[simp] theorem lengthMix_lat (s : State) : (lengthMix s).lat = s.lat := by dsimp only [lengthMix]
@[simp] theorem lengthMix_draws (s : State) : (lengthMix s).draws = s.draws := by dsimp only [lengthMix]
@[simp] theorem lengthMix_wordsInUse (s : State) :
    (lengthMix s).wordsInUse = s.wordsInUse := by dsimp only [lengthMix, State.wordsInUse]
@[simp] theorem lengthMix_mainRoundCount (s : State) :
    (lengthMix s).mainRoundCount = s.mainRoundCount := by dsimp only [lengthMix, State.mainRoundCount]
@[simp] theorem lengthMix_seed (s : State) : (lengthMix s).seed = s.seed := by dsimp only [lengthMix, State.seed]
@[simp] theorem lengthMix_lane (s : State) : (lengthMix s).lane = s.lane := by dsimp only [lengthMix, State.lane]

@[simp] theorem buildTail_w (s : State) : (buildTail s).w = s.w := by dsimp only [buildTail]
@[simp] theorem buildTail_fsm (s : State) : (buildTail s).fsm = s.fsm := by dsimp only [buildTail]
@[simp] theorem buildTail_cfgValid (s : State) : (buildTail s).cfgValid = s.cfgValid := by dsimp only [buildTail]
@[simp] theorem buildTail_ds (s : State) : (buildTail s).ds = s.ds := by dsimp only [buildTail]
@[simp] theorem buildTail_keyEn (s : State) : (buildTail s).keyEn = s.keyEn := by dsimp only [buildTail]
@[simp] theorem buildTail_key (s : State) : (buildTail s).key = s.key := by dsimp only [buildTail]
@[simp] theorem buildTail_totalLen (s : State) : (buildTail s).totalLen = s.totalLen := by dsimp only [buildTail]
@[simp] theorem buildTail_widx (s : State) : (buildTail s).widx = s.widx := by dsimp only [buildTail]
@[simp] theorem buildTail_tail (s : State) : (buildTail s).tail = s.tail := by dsimp only [buildTail]
@[simp] theorem buildTail_nacc (s : State) : (buildTail s).nacc = s.nacc := by dsimp only [buildTail]
@[simp] theorem buildTail_digest (s : State) : (buildTail s).digest = s.digest := by dsimp only [buildTail]
@[simp] theorem buildTail_digestValid (s : State) :
    (buildTail s).digestValid = s.digestValid := by dsimp only [buildTail]
@[simp] theorem buildTail_faultCause (s : State) : (buildTail s).faultCause = s.faultCause := by dsimp only [buildTail]
@[simp] theorem buildTail_nxt (s : State) : (buildTail s).nxt = s.nxt := by dsimp only [buildTail]
@[simp] theorem buildTail_round (s : State) :
    (buildTail s).round = BitVec.ofNat 8 s.mainRoundCount := by dsimp only [buildTail]
@[simp] theorem buildTail_phase (s : State) : (buildTail s).phase = phaseTail := by dsimp only [buildTail]
@[simp] theorem buildTail_pt (s : State) : (buildTail s).pt = paddedTail s.tail s.totalLen := by dsimp only [buildTail]
@[simp] theorem buildTail_tacc (s : State) : (buildTail s).tacc = s.tacc := by dsimp only [buildTail]
@[simp] theorem buildTail_inFlight (s : State) : (buildTail s).inFlight = s.inFlight := by dsimp only [buildTail]
@[simp] theorem buildTail_inputs (s : State) : (buildTail s).inputs = s.inputs := by dsimp only [buildTail]
@[simp] theorem buildTail_lat (s : State) : (buildTail s).lat = s.lat := by dsimp only [buildTail]
@[simp] theorem buildTail_draws (s : State) : (buildTail s).draws = s.draws := by dsimp only [buildTail]
@[simp] theorem buildTail_wordsInUse (s : State) :
    (buildTail s).wordsInUse = s.wordsInUse := by dsimp only [buildTail, State.wordsInUse]
@[simp] theorem buildTail_mainRoundCount (s : State) :
    (buildTail s).mainRoundCount = s.mainRoundCount := by dsimp only [buildTail, State.mainRoundCount]
@[simp] theorem buildTail_seed (s : State) : (buildTail s).seed = s.seed := by dsimp only [buildTail, State.seed]
@[simp] theorem buildTail_lane (s : State) : (buildTail s).lane = s.lane := by dsimp only [buildTail, State.lane]

@[simp] theorem tailNoise_w (s : State) : (tailNoise s).w = s.w := by dsimp only [tailNoise]
@[simp] theorem tailNoise_fsm (s : State) : (tailNoise s).fsm = s.fsm := by dsimp only [tailNoise]
@[simp] theorem tailNoise_cfgValid (s : State) : (tailNoise s).cfgValid = s.cfgValid := by dsimp only [tailNoise]
@[simp] theorem tailNoise_ds (s : State) : (tailNoise s).ds = s.ds := by dsimp only [tailNoise]
@[simp] theorem tailNoise_keyEn (s : State) : (tailNoise s).keyEn = s.keyEn := by dsimp only [tailNoise]
@[simp] theorem tailNoise_key (s : State) : (tailNoise s).key = s.key := by dsimp only [tailNoise]
@[simp] theorem tailNoise_totalLen (s : State) : (tailNoise s).totalLen = s.totalLen := by dsimp only [tailNoise]
@[simp] theorem tailNoise_widx (s : State) : (tailNoise s).widx = s.widx := by dsimp only [tailNoise]
@[simp] theorem tailNoise_tail (s : State) : (tailNoise s).tail = s.tail := by dsimp only [tailNoise]
@[simp] theorem tailNoise_nacc (s : State) : (tailNoise s).nacc = s.nacc := by dsimp only [tailNoise]
@[simp] theorem tailNoise_digest (s : State) : (tailNoise s).digest = s.digest := by dsimp only [tailNoise]
@[simp] theorem tailNoise_digestValid (s : State) :
    (tailNoise s).digestValid = s.digestValid := by dsimp only [tailNoise]
@[simp] theorem tailNoise_faultCause (s : State) : (tailNoise s).faultCause = s.faultCause := by dsimp only [tailNoise]
@[simp] theorem tailNoise_nxt (s : State) : (tailNoise s).nxt = s.nxt := by dsimp only [tailNoise]
@[simp] theorem tailNoise_round (s : State) : (tailNoise s).round = s.round := by dsimp only [tailNoise]
@[simp] theorem tailNoise_phase (s : State) : (tailNoise s).phase = s.phase := by dsimp only [tailNoise]
@[simp] theorem tailNoise_pt (s : State) : (tailNoise s).pt = s.pt := by dsimp only [tailNoise]
@[simp] theorem tailNoise_tacc (s : State) :
    (tailNoise s).tacc = noiseAcc (ptBytes s.pt) s.seed := by dsimp only [tailNoise]
@[simp] theorem tailNoise_inFlight (s : State) : (tailNoise s).inFlight = s.inFlight := by dsimp only [tailNoise]
@[simp] theorem tailNoise_inputs (s : State) : (tailNoise s).inputs = s.inputs := by dsimp only [tailNoise]
@[simp] theorem tailNoise_lat (s : State) : (tailNoise s).lat = s.lat := by dsimp only [tailNoise]
@[simp] theorem tailNoise_draws (s : State) : (tailNoise s).draws = s.draws := by dsimp only [tailNoise]
@[simp] theorem tailNoise_wordsInUse (s : State) :
    (tailNoise s).wordsInUse = s.wordsInUse := by dsimp only [tailNoise, State.wordsInUse]
@[simp] theorem tailNoise_mainRoundCount (s : State) :
    (tailNoise s).mainRoundCount = s.mainRoundCount := by dsimp only [tailNoise, State.mainRoundCount]
@[simp] theorem tailNoise_seed (s : State) : (tailNoise s).seed = s.seed := by dsimp only [tailNoise, State.seed]
@[simp] theorem tailNoise_lane (s : State) : (tailNoise s).lane = s.lane := by dsimp only [tailNoise, State.lane]

@[simp] theorem presentDigest_w (s : State) : (presentDigest s).w = s.w := by dsimp only [presentDigest]
@[simp] theorem presentDigest_fsm (s : State) : (presentDigest s).fsm = .finalized := by dsimp only [presentDigest]
@[simp] theorem presentDigest_cfgValid (s : State) :
    (presentDigest s).cfgValid = s.cfgValid := by dsimp only [presentDigest]
@[simp] theorem presentDigest_ds (s : State) : (presentDigest s).ds = s.ds := by dsimp only [presentDigest]
@[simp] theorem presentDigest_keyEn (s : State) : (presentDigest s).keyEn = s.keyEn := by dsimp only [presentDigest]
@[simp] theorem presentDigest_key (s : State) : (presentDigest s).key = s.key := by dsimp only [presentDigest]
@[simp] theorem presentDigest_totalLen (s : State) :
    (presentDigest s).totalLen = s.totalLen := by dsimp only [presentDigest]
@[simp] theorem presentDigest_widx (s : State) : (presentDigest s).widx = s.widx := by dsimp only [presentDigest]
@[simp] theorem presentDigest_tail (s : State) : (presentDigest s).tail = s.tail := by dsimp only [presentDigest]
@[simp] theorem presentDigest_nacc (s : State) : (presentDigest s).nacc = s.nacc := by dsimp only [presentDigest]
@[simp] theorem presentDigest_digest (s : State) :
    (presentDigest s).digest = squeeze s.ds s.w := by dsimp only [presentDigest]
@[simp] theorem presentDigest_digestValid (s : State) :
    (presentDigest s).digestValid = true := by dsimp only [presentDigest]
@[simp] theorem presentDigest_faultCause (s : State) :
    (presentDigest s).faultCause = s.faultCause := by dsimp only [presentDigest]
@[simp] theorem presentDigest_nxt (s : State) : (presentDigest s).nxt = s.nxt := by dsimp only [presentDigest]
@[simp] theorem presentDigest_round (s : State) :
    (presentDigest s).round = BitVec.ofNat 8 (finRoundBase s.ds + extraRoundCount) := by dsimp only [presentDigest]
@[simp] theorem presentDigest_phase (s : State) :
    (presentDigest s).phase = phaseSqueeze := by dsimp only [presentDigest]
@[simp] theorem presentDigest_pt (s : State) : (presentDigest s).pt = s.pt := by dsimp only [presentDigest]
@[simp] theorem presentDigest_tacc (s : State) : (presentDigest s).tacc = s.tacc := by dsimp only [presentDigest]
@[simp] theorem presentDigest_inFlight (s : State) :
    (presentDigest s).inFlight = s.inFlight := by dsimp only [presentDigest]
@[simp] theorem presentDigest_inputs (s : State) : (presentDigest s).inputs = s.inputs := by dsimp only [presentDigest]
@[simp] theorem presentDigest_lat (s : State) : (presentDigest s).lat = s.lat := by dsimp only [presentDigest]
@[simp] theorem presentDigest_draws (s : State) : (presentDigest s).draws = s.draws := by dsimp only [presentDigest]
@[simp] theorem presentDigest_wordsInUse (s : State) :
    (presentDigest s).wordsInUse = s.wordsInUse := by dsimp only [presentDigest, State.wordsInUse]
@[simp] theorem presentDigest_mainRoundCount (s : State) :
    (presentDigest s).mainRoundCount = s.mainRoundCount := by dsimp only [presentDigest, State.mainRoundCount]
@[simp] theorem presentDigest_seed (s : State) :
    (presentDigest s).seed = s.seed := by dsimp only [presentDigest, State.seed]
@[simp] theorem presentDigest_lane (s : State) :
    (presentDigest s).lane = s.lane := by dsimp only [presentDigest, State.lane]

@[simp] theorem goIdle_w (s : State) : (goIdle s).w = s.w := by dsimp only [goIdle]
@[simp] theorem goIdle_fsm (s : State) : (goIdle s).fsm = s.fsm := by dsimp only [goIdle]
@[simp] theorem goIdle_cfgValid (s : State) : (goIdle s).cfgValid = s.cfgValid := by dsimp only [goIdle]
@[simp] theorem goIdle_ds (s : State) : (goIdle s).ds = s.ds := by dsimp only [goIdle]
@[simp] theorem goIdle_keyEn (s : State) : (goIdle s).keyEn = s.keyEn := by dsimp only [goIdle]
@[simp] theorem goIdle_key (s : State) : (goIdle s).key = s.key := by dsimp only [goIdle]
@[simp] theorem goIdle_totalLen (s : State) : (goIdle s).totalLen = s.totalLen := by dsimp only [goIdle]
@[simp] theorem goIdle_widx (s : State) : (goIdle s).widx = s.widx := by dsimp only [goIdle]
@[simp] theorem goIdle_tail (s : State) : (goIdle s).tail = s.tail := by dsimp only [goIdle]
@[simp] theorem goIdle_nacc (s : State) : (goIdle s).nacc = s.nacc := by dsimp only [goIdle]
@[simp] theorem goIdle_digest (s : State) : (goIdle s).digest = s.digest := by dsimp only [goIdle]
@[simp] theorem goIdle_digestValid (s : State) : (goIdle s).digestValid = s.digestValid := by dsimp only [goIdle]
@[simp] theorem goIdle_faultCause (s : State) : (goIdle s).faultCause = s.faultCause := by dsimp only [goIdle]
@[simp] theorem goIdle_nxt (s : State) : (goIdle s).nxt = s.nxt := by dsimp only [goIdle]
@[simp] theorem goIdle_round (s : State) : (goIdle s).round = s.round := by dsimp only [goIdle]
@[simp] theorem goIdle_phase (s : State) : (goIdle s).phase = phaseIdle := by dsimp only [goIdle]
@[simp] theorem goIdle_pt (s : State) : (goIdle s).pt = s.pt := by dsimp only [goIdle]
@[simp] theorem goIdle_tacc (s : State) : (goIdle s).tacc = s.tacc := by dsimp only [goIdle]
@[simp] theorem goIdle_inFlight (s : State) : (goIdle s).inFlight = s.inFlight := by dsimp only [goIdle]
@[simp] theorem goIdle_inputs (s : State) : (goIdle s).inputs = s.inputs := by dsimp only [goIdle]
@[simp] theorem goIdle_lat (s : State) : (goIdle s).lat = s.lat := by dsimp only [goIdle]
@[simp] theorem goIdle_draws (s : State) : (goIdle s).draws = s.draws := by dsimp only [goIdle]
@[simp] theorem goIdle_wordsInUse (s : State) :
    (goIdle s).wordsInUse = s.wordsInUse := by dsimp only [goIdle, State.wordsInUse]
@[simp] theorem goIdle_mainRoundCount (s : State) :
    (goIdle s).mainRoundCount = s.mainRoundCount := by dsimp only [goIdle, State.mainRoundCount]
@[simp] theorem goIdle_seed (s : State) : (goIdle s).seed = s.seed := by dsimp only [goIdle, State.seed]
@[simp] theorem goIdle_lane (s : State) : (goIdle s).lane = s.lane := by dsimp only [goIdle, State.lane]

@[simp] theorem dropInput_w (s : State) : (dropInput s).w = s.w := by dsimp only [dropInput]
@[simp] theorem dropInput_fsm (s : State) : (dropInput s).fsm = s.fsm := by dsimp only [dropInput]
@[simp] theorem dropInput_cfgValid (s : State) : (dropInput s).cfgValid = s.cfgValid := by dsimp only [dropInput]
@[simp] theorem dropInput_ds (s : State) : (dropInput s).ds = s.ds := by dsimp only [dropInput]
@[simp] theorem dropInput_keyEn (s : State) : (dropInput s).keyEn = s.keyEn := by dsimp only [dropInput]
@[simp] theorem dropInput_key (s : State) : (dropInput s).key = s.key := by dsimp only [dropInput]
@[simp] theorem dropInput_totalLen (s : State) : (dropInput s).totalLen = s.totalLen := by dsimp only [dropInput]
@[simp] theorem dropInput_widx (s : State) : (dropInput s).widx = s.widx := by dsimp only [dropInput]
@[simp] theorem dropInput_tail (s : State) : (dropInput s).tail = s.tail := by dsimp only [dropInput]
@[simp] theorem dropInput_nacc (s : State) : (dropInput s).nacc = s.nacc := by dsimp only [dropInput]
@[simp] theorem dropInput_digest (s : State) : (dropInput s).digest = s.digest := by dsimp only [dropInput]
@[simp] theorem dropInput_digestValid (s : State) :
    (dropInput s).digestValid = s.digestValid := by dsimp only [dropInput]
@[simp] theorem dropInput_faultCause (s : State) : (dropInput s).faultCause = s.faultCause := by dsimp only [dropInput]
@[simp] theorem dropInput_nxt (s : State) : (dropInput s).nxt = s.nxt := by dsimp only [dropInput]
@[simp] theorem dropInput_round (s : State) : (dropInput s).round = s.round := by dsimp only [dropInput]
@[simp] theorem dropInput_phase (s : State) : (dropInput s).phase = s.phase := by dsimp only [dropInput]
@[simp] theorem dropInput_pt (s : State) : (dropInput s).pt = s.pt := by dsimp only [dropInput]
@[simp] theorem dropInput_tacc (s : State) : (dropInput s).tacc = s.tacc := by dsimp only [dropInput]
@[simp] theorem dropInput_inFlight (s : State) : (dropInput s).inFlight = s.inFlight := by dsimp only [dropInput]
@[simp] theorem dropInput_inputs (s : State) : (dropInput s).inputs = s.inputs.tail := by dsimp only [dropInput]
@[simp] theorem dropInput_lat (s : State) : (dropInput s).lat = s.lat := by dsimp only [dropInput]
@[simp] theorem dropInput_draws (s : State) : (dropInput s).draws = s.draws := by dsimp only [dropInput]
@[simp] theorem dropInput_wordsInUse (s : State) :
    (dropInput s).wordsInUse = s.wordsInUse := by dsimp only [dropInput, State.wordsInUse]
@[simp] theorem dropInput_mainRoundCount (s : State) :
    (dropInput s).mainRoundCount = s.mainRoundCount := by dsimp only [dropInput, State.mainRoundCount]
@[simp] theorem dropInput_seed (s : State) : (dropInput s).seed = s.seed := by dsimp only [dropInput, State.seed]
@[simp] theorem dropInput_lane (s : State) : (dropInput s).lane = s.lane := by dsimp only [dropInput, State.lane]

@[simp] theorem presentWord_w (s : State) (c : CmdWord) : (presentWord s c).w = s.w := by dsimp only [presentWord]
@[simp] theorem presentWord_fsm (s : State) (c : CmdWord) : (presentWord s c).fsm = s.fsm := by dsimp only [presentWord]
@[simp] theorem presentWord_cfgValid (s : State) (c : CmdWord) :
    (presentWord s c).cfgValid = s.cfgValid := by dsimp only [presentWord]
@[simp] theorem presentWord_ds (s : State) (c : CmdWord) : (presentWord s c).ds = s.ds := by dsimp only [presentWord]
@[simp] theorem presentWord_keyEn (s : State) (c : CmdWord) :
    (presentWord s c).keyEn = s.keyEn := by dsimp only [presentWord]
@[simp] theorem presentWord_key (s : State) (c : CmdWord) : (presentWord s c).key = s.key := by dsimp only [presentWord]
@[simp] theorem presentWord_totalLen (s : State) (c : CmdWord) :
    (presentWord s c).totalLen = s.totalLen := by dsimp only [presentWord]
@[simp] theorem presentWord_widx (s : State) (c : CmdWord) :
    (presentWord s c).widx = s.widx := by dsimp only [presentWord]
@[simp] theorem presentWord_tail (s : State) (c : CmdWord) :
    (presentWord s c).tail = s.tail := by dsimp only [presentWord]
@[simp] theorem presentWord_nacc (s : State) (c : CmdWord) :
    (presentWord s c).nacc = s.nacc := by dsimp only [presentWord]
@[simp] theorem presentWord_digest (s : State) (c : CmdWord) :
    (presentWord s c).digest = s.digest := by dsimp only [presentWord]
@[simp] theorem presentWord_digestValid (s : State) (c : CmdWord) :
    (presentWord s c).digestValid = s.digestValid := by dsimp only [presentWord]
@[simp] theorem presentWord_faultCause (s : State) (c : CmdWord) :
    (presentWord s c).faultCause = s.faultCause := by dsimp only [presentWord]
@[simp] theorem presentWord_nxt (s : State) (c : CmdWord) : (presentWord s c).nxt = s.nxt := by dsimp only [presentWord]
@[simp] theorem presentWord_round (s : State) (c : CmdWord) :
    (presentWord s c).round = s.round := by dsimp only [presentWord]
@[simp] theorem presentWord_phase (s : State) (c : CmdWord) :
    (presentWord s c).phase = s.phase := by dsimp only [presentWord]
@[simp] theorem presentWord_pt (s : State) (c : CmdWord) : (presentWord s c).pt = s.pt := by dsimp only [presentWord]
@[simp] theorem presentWord_tacc (s : State) (c : CmdWord) :
    (presentWord s c).tacc = s.tacc := by dsimp only [presentWord]
@[simp] theorem presentWord_inFlight (s : State) (c : CmdWord) :
    (presentWord s c).inFlight = none := by dsimp only [presentWord]
@[simp] theorem presentWord_inputs (s : State) (c : CmdWord) :
    (presentWord s c).inputs = commandInput c :: s.inputs := by dsimp only [presentWord]
@[simp] theorem presentWord_lat (s : State) (c : CmdWord) : (presentWord s c).lat = [] := by dsimp only [presentWord]
@[simp] theorem presentWord_draws (s : State) (c : CmdWord) :
    (presentWord s c).draws = s.draws := by dsimp only [presentWord]
@[simp] theorem presentWord_wordsInUse (s : State) (c : CmdWord) :
    (presentWord s c).wordsInUse = s.wordsInUse := by dsimp only [presentWord, State.wordsInUse]
@[simp] theorem presentWord_mainRoundCount (s : State) (c : CmdWord) :
    (presentWord s c).mainRoundCount = s.mainRoundCount := by dsimp only [presentWord, State.mainRoundCount]
@[simp] theorem presentWord_seed (s : State) (c : CmdWord) :
    (presentWord s c).seed = s.seed := by dsimp only [presentWord, State.seed]
@[simp] theorem presentWord_lane (s : State) (c : CmdWord) :
    (presentWord s c).lane = s.lane := by dsimp only [presentWord, State.lane]

@[simp] theorem configure_wordsInUse (d : DigestSize) (e : Bool) (k : Word) (s : State) :
    (configure d e k s).wordsInUse = wordCount d := rfl
@[simp] theorem configure_seed (d : DigestSize) (e : Bool) (k : Word) (s : State) :
    (configure d e k s).seed = seedOf e (if e then k else 0) := rfl

end Sys2Proof.Machine
end

