-- ==== Sys2Proof/Laws/Words.lean ====
section
/-! SUPPORT. The word array: what a read sees after each way of writing it. -/

namespace Sys2Proof.Machine

theorem getWord_of_lt {w : Words} {i : Nat} (h : i < 40) : getWord w i = w[i] := by simp [getWord, h]

@[simp] theorem getWord_of_ge {w : Words} {i : Nat} (h : 40 ≤ i) : getWord w i = 0 := by
  simp [getWord, Nat.not_lt.mpr h]

theorem words_ext {v w : Words} (h : ∀ i, i < 40 → getWord v i = getWord w i) : v = w := by
  ext1 i hi
  simpa [getWord, hi] using h i hi

theorem getWord_setWord (w : Words) (i j : Nat) (v : Word) :
    getWord (setWord w i v) j = if i = j ∧ j < 40 then v else getWord w j := by
  by_cases hj : j < 40
  · by_cases hij : i = j
    · subst hij; simp [getWord, setWord, hj]
    · simp [getWord, setWord, hj, hij, Vector.getElem_setIfInBounds_ne]
  · simp [getWord, hj]

theorem getWord_xorWord (w : Words) (i j : Nat) (v : Word) :
    getWord (xorWord w i v) j = if i = j ∧ j < 40 then getWord w j ^^^ v else getWord w j := by
  rw [xorWord, getWord_setWord]
  by_cases h : i = j ∧ j < 40
  · rw [if_pos h, if_pos h, h.1]
  · rw [if_neg h, if_neg h]

theorem getWord_buildWords (f : Nat → Word) (i : Nat) : getWord (buildWords f) i = if i < 40 then f i else 0 := by
  by_cases h : i < 40 <;> simp [getWord, buildWords, h]

theorem getWord_fillWords (n : Nat) (f : Nat → Word) (w : Words) (i : Nat) :
    getWord (fillWords n f w) i = if i < n ∧ i < 40 then f i else getWord w i := by
  rw [fillWords, getWord_buildWords]
  by_cases h : i < 40
  · simp [h]
  · simp [h, getWord]

/-- A fill that reads only `W[0..n-1]` of two arrays that agree there gives arrays that agree there. -/
theorem fillWords_congr {n : Nat} {f g : Nat → Word} {v w : Words} (hfg : ∀ i, i < n → f i = g i) :
    ∀ i, i < n → i < 40 → getWord (fillWords n f v) i = getWord (fillWords n g w) i := by
  intro i hn h40
  simp [getWord_fillWords, hn, h40, hfg i hn]

theorem wordCount_le (ds : DigestSize) : wordCount ds ≤ 40 := by cases ds <;> decide

theorem four_lt_wordCount (ds : DigestSize) : 4 < wordCount ds := by cases ds <;> decide

theorem wordCount_pos (ds : DigestSize) : 0 < wordCount ds := by cases ds <;> decide

/-- The words a digest comes from are in use: OUTLEN ≤ 8N (00_scope.md R6). -/
theorem outLen_le (ds : DigestSize) : outLen ds ≤ 8 * wordCount ds := by cases ds <;> decide

theorem outLen_le_port (ds : DigestSize) : outLen ds ≤ 64 := by cases ds <;> decide

/-- One round, read word by word (42_arx_round_engine.md R121). -/
theorem getWord_arxRound (n : Nat) (old : Words) (c : Word) (i : Nat) :
    getWord (arxRound n old c) i = if i < n ∧ i < 40 then arxWord n old c i else getWord old i := by
  rw [arxRound, getWord_fillWords]

/-- A round reads only the first `n` words. -/
theorem arxWord_congr {n : Nat} (hn : 0 < n) {v w : Words} (h : ∀ i, i < n → getWord v i = getWord w i) (c : Word)
    {i : Nat} (hi : i < n) : arxWord n v c i = arxWord n w c i := by
  simp only [arxWord]
  rw [h i hi, h _ (Nat.mod_lt (i + 1) hn), h _ (Nat.mod_lt (i + 2) hn), h _ (Nat.mod_lt (i + 3) hn),
    h _ (Nat.mod_lt (i + 4) hn)]

/-- A sequence of rounds never writes past the first `n` words. -/
theorem getWord_arxRounds_ge {n : Nat} (cs : List Word) (old : Words) {i : Nat} (h : n ≤ i) :
    getWord (arxRounds n old cs) i = getWord old i := by
  unfold arxRounds
  induction cs generalizing old with
  | nil => rfl
  | cons c cs ih => rw [List.foldl_cons, ih, getWord_arxRound, if_neg (by omega)]

/-- A sequence of rounds depends on the first `n` words only. -/
theorem arxRounds_congr {n : Nat} (hn : 0 < n) (h40 : n ≤ 40) (cs : List Word) {v w : Words}
    (h : ∀ i, i < n → getWord v i = getWord w i) :
    ∀ i, i < n → getWord (arxRounds n v cs) i = getWord (arxRounds n w cs) i := by
  unfold arxRounds
  induction cs generalizing v w with
  | nil => simpa only [List.foldl_nil] using h
  | cons c cs ih =>
    simp only [List.foldl_cons]
    refine ih fun i hi => ?_
    rw [getWord_arxRound, getWord_arxRound, if_pos ⟨hi, by omega⟩, if_pos ⟨hi, by omega⟩]
    exact arxWord_congr hn h c hi

end Sys2Proof.Machine
end

