-- ==== Sys2Proof/Laws/Bits.lean ====
section
/-! SUPPORT. Rotations, lanes and byte strings. -/

namespace Sys2Proof.Machine

@[simp] theorem rotl_zero (x : Word) : rotl x 0 = x := by simp [rotl]

@[simp] theorem rotr_zero (x : Word) : rotr x 0 = x := by simp [rotr]

@[simp] theorem zero_rotl (n : Nat) : rotl 0#64 n = 0#64 := by simp [rotl]

/-- A rotation amount counts modulo 64 (00_scope.md R11). -/
theorem rotl_mod (x : Word) (n : Nat) : rotl x (n % 64) = rotl x n := by simp [rotl]

/-- Lane `j` of a byte placed in lane `k`. -/
theorem laneByte_placeByte (b : Byte) {j k : Nat} (hj : j < 8) (hk : k < 8) :
    laneByte (placeByte b k) j = if j = k then b else 0 := by
  ext i hi
  simp only [laneByte, placeByte, BitVec.getElem_extractLsb', BitVec.getLsbD_shiftLeft, BitVec.getLsbD_setWidth]
  by_cases h : j = k
  · subst h
    have h1 : ¬ (56 - 8 * j + i < 8 * (7 - j)) := by omega
    have h2 : 56 - 8 * j + i - 8 * (7 - j) = i := by omega
    simp [h1, h2, show 56 - 8 * j + i < 64 by omega, show i < 64 by omega, BitVec.getLsbD_eq_getElem hi]
  · simp only [if_neg h]
    by_cases hlt : 56 - 8 * j + i < 8 * (7 - k)
    · simp [hlt]
    · have : 8 ≤ 56 - 8 * j + i - 8 * (7 - k) := by omega
      simp [BitVec.getLsbD_of_ge _ _ this]

@[simp] theorem laneByte_xor (x y : Word) (k : Nat) : laneByte (x ^^^ y) k = laneByte x k ^^^ laneByte y k := by
  simp [laneByte, BitVec.extractLsb'_xor]

@[simp] theorem laneByte_or (x y : Word) (k : Nat) : laneByte (x ||| y) k = laneByte x k ||| laneByte y k := by
  simp [laneByte, BitVec.extractLsb'_or]

@[simp] theorem laneByte_zero (k : Nat) : laneByte 0#64 k = 0#8 := by simp [laneByte]

/-- A word is its eight lanes. -/
theorem word_ext_lanes {x y : Word} (h : ∀ k, k < 8 → laneByte x k = laneByte y k) : x = y := by
  ext i hi
  have hk := congrArg (fun b : Byte => b.getLsbD (i % 8)) (h (7 - i / 8) (by omega))
  have e : 56 - 8 * (7 - i / 8) + i % 8 = i := by omega
  simpa [laneByte, BitVec.getLsbD_extractLsb', Nat.mod_lt, e, BitVec.getLsbD_eq_getElem hi] using hk

@[simp] theorem be64_length (x : Word) : (be64 x).length = 8 := by simp [be64]

@[simp] theorem be128_length (x : BitVec 128) : (be128 x).length = 16 := by simp [be128]

@[simp] theorem ptBytes_length (x : BitVec 192) : (ptBytes x).length = 24 := by simp [ptBytes]

@[simp] theorem absorbBytes_length (n : Nat) (d : Word) : (absorbBytes n d).length = n := by simp [absorbBytes]

/-- Lane `j` of packed bytes: byte `j - k` of the list, or 0 past its end or before lane `k`. -/
theorem laneByte_packLanes (bs : List Byte) {j k : Nat} (hj : j < 8) (h : k + bs.length ≤ 8) :
    laneByte (packLanes k bs) j = if k ≤ j then bs.getD (j - k) 0 else 0 := by
  induction bs generalizing k with
  | nil => simp [packLanes]
  | cons b bs ih =>
    simp only [List.length_cons] at h
    rw [packLanes, laneByte_or, laneByte_placeByte b hj (by omega), ih (by omega)]
    by_cases hjk : j = k
    · subst hjk; simp
    · by_cases hle : k ≤ j
      · have : j - k = (j - (k + 1)) + 1 := by omega
        simp [hjk, hle, show k + 1 ≤ j by omega, this]
      · simp [hjk, hle, show ¬ (k + 1 ≤ j) by omega]

/-- Lane `j` of a left-aligned chunk is its byte `j`, or 0 past its end (44_command_absorb.md R152). -/
theorem laneByte_leftAligned {bs : List Byte} (h : bs.length ≤ 8) {j : Nat} (hj : j < 8) :
    laneByte (leftAligned bs) j = bs.getD j 0 := by
  simpa [leftAligned] using laneByte_packLanes (k := 0) bs hj (by omega)

end Sys2Proof.Machine
end

