-- ==== Sys2Proof/Laws/Commands.lean ====
section
/-! SUPPORT. What each shared operation and each command can do, said once: the lemmas later proofs cite instead of unfolding
a command. -/

namespace Sys2Proof.Machine

/-- Everything INIT can do. -/
theorem execInit_next {ds : DigestSize} {e : Bool} {k : Word} {s t : State} (h : execInit ds e k s = .next t) :
    t = enterFresh (configure ds e k s) := by
  simpa [execInit, eq_comm] using h

/-- Everything RESET can do. -/
theorem execReset_cases {s t : State} (h : execReset s = .next t) :
    (s.cfgValid = false ∧ s.fsm = .fault ∧ t = s) ∨
    (s.cfgValid = false ∧ s.fsm ≠ .fault ∧ t = raiseFault .notConfigured s) ∨
    (s.cfgValid = true ∧ t = enterFresh s) := by
  unfold execReset at h
  split at h
  · rename_i hc
    split at h
    · exact .inl ⟨hc, ‹_›, (Host.Outcome.next.inj h).symm⟩
    · exact .inr (.inl ⟨hc, ‹_›, (Host.Outcome.next.inj h).symm⟩)
  · rename_i hc
    exact .inr (.inr ⟨by simpa using hc, (Host.Outcome.next.inj h).symm⟩)

/-- Everything ABSORB can do. -/
theorem execAbsorb_cases {bs : List Byte} {s t : State} (h : execAbsorb bs s = .next t) :
    (s.fsm = .fault ∧ t = s) ∨
    (s.fsm ≠ .fault ∧ s.cfgValid = false ∧ t = raiseFault .notConfigured s) ∨
    (s.fsm = .finalized ∧ s.cfgValid = true ∧ t = raiseFault .absorbAfterFinalize s) ∨
    (s.fsm ≠ .fault ∧ s.fsm ≠ .finalized ∧ s.cfgValid = true ∧ t = enterAbsorbing (absorbAll bs s)) := by
  unfold execAbsorb at h
  split at h
  · exact .inl ⟨‹_›, (Host.Outcome.next.inj h).symm⟩
  · split at h
    · exact .inr (.inl ⟨‹_›, ‹_›, (Host.Outcome.next.inj h).symm⟩)
    · split at h
      · exact .inr (.inr (.inl ⟨‹_›, by simp_all, (Host.Outcome.next.inj h).symm⟩))
      · exact .inr (.inr (.inr ⟨‹_›, ‹_›, by simp_all, (Host.Outcome.next.inj h).symm⟩))

/-- Everything FINALIZE can do. -/
theorem execFinalize_cases {s t : State} (h : execFinalize s = .next t) :
    (s.fsm = .fault ∧ t = s) ∨
    (s.fsm ≠ .fault ∧ s.cfgValid = false ∧ t = raiseFault .notConfigured s) ∨
    (s.fsm = .finalized ∧ s.cfgValid = true ∧ t = s) ∨
    (s.fsm ≠ .fault ∧ s.fsm ≠ .finalized ∧ s.cfgValid = true ∧ t = finalizeSteps s) := by
  unfold execFinalize at h
  split at h
  · exact .inl ⟨‹_›, (Host.Outcome.next.inj h).symm⟩
  · split at h
    · exact .inr (.inl ⟨‹_›, ‹_›, (Host.Outcome.next.inj h).symm⟩)
    · split at h
      · exact .inr (.inr (.inl ⟨‹_›, by simp_all, (Host.Outcome.next.inj h).symm⟩))
      · exact .inr (.inr (.inr ⟨‹_›, ‹_›, by simp_all, (Host.Outcome.next.inj h).symm⟩))

/-- Everything an accepted word can do. -/
theorem execute_cases {w : CmdWord} {s t : State} (h : execute w s = .next t) :
    (∃ i, decode w = .legal i ∧ exec i s = .next t) ∨
    (∃ c, decode w = .illegal c ∧ t = refuseIllegal c s) := by
  unfold execute at h
  split at h
  · exact .inl ⟨_, ‹_›, h⟩
  · exact .inr ⟨_, ‹_›, (Host.Outcome.next.inj h).symm⟩

/-- Everything an illegal word can do. -/
theorem refuseIllegal_cases (c : Cause) (s : State) :
    (s.fsm = .fault ∧ refuseIllegal c s = s) ∨ (s.fsm ≠ .fault ∧ refuseIllegal c s = raiseFault c s) := by
  unfold refuseIllegal
  split
  · exact .inl ⟨‹_›, rfl⟩
  · exact .inr ⟨‹_›, rfl⟩

/-- Everything one edge can do. -/
theorem step_cases {s t : State} (h : step s = .next t) :
    clockEdge s = .stay t ∨ ∃ w u, clockEdge s = .run w u ∧ execute w u = .next t := by
  unfold step at h
  split at h
  · rename_i u hu
    rw [hu]
    exact .inl (congrArg _ (Host.Outcome.next.inj h))
  · exact .inr ⟨_, _, ‹_›, h⟩

/-- The state before a completing command is the old one, but for the port's own fields. -/
theorem clockEdge_run {s u : State} {w : CmdWord} (h : clockEdge s = .run w u) :
    u = { s with inFlight := none, inputs := s.inputs.tail } := by
  unfold clockEdge at h
  split at h
  · cases h
  · split at h
    · injection h with _ hu
      exact hu.symm
    · cases h
    · rename_i hf
      split at h
      · split at h
        · injection h with _ hu
          rw [← hu, dropInput, ← hf]
        · cases h
      · cases h

/-- An edge at which no command completes: a hardware reset, or nothing but the port's own fields changes. -/
theorem clockEdge_stay {s t : State} (h : clockEdge s = .stay t) :
    (s.sampled.rst = true ∧ t = hardwareReset (dropInput s)) ∨
    (s.sampled.rst = false ∧ ∃ f, t = { s with inFlight := f, inputs := s.inputs.tail }) := by
  unfold clockEdge at h
  split at h
  · injection h with h
    exact .inl ⟨‹_›, h.symm⟩
  · refine .inr ⟨by simp_all, ?_⟩
    split at h
    · cases h
    · injection h with h
      exact ⟨_, h.symm⟩
    · rename_i hf
      split at h
      · split at h
        · cases h
        · injection h with h
          exact ⟨_, h.symm⟩
      · injection h with h
        exact ⟨none, by rw [← h, dropInput, ← hf]⟩

@[simp] theorem absorbAll_nil (s : State) : absorbAll [] s = s := rfl

@[simp] theorem absorbAll_cons (b : Byte) (bs : List Byte) (s : State) :
    absorbAll (b :: bs) s = absorbAll bs (absorbByte s b) := rfl

/-- Bytes absorbed one command after another are bytes absorbed at once. -/
theorem absorbAll_append (as bs : List Byte) (s : State) : absorbAll (as ++ bs) s = absorbAll bs (absorbAll as s) := by
  simp only [absorbAll, List.foldl_append]

theorem absorbByte_enterAbsorbing (s : State) (b : Byte) :
    absorbByte (enterAbsorbing s) b = enterAbsorbing (absorbByte s b) := rfl

/-- Absorbing bytes does not look at `STATE`. -/
theorem absorbAll_enterAbsorbing (bs : List Byte) (s : State) :
    absorbAll bs (enterAbsorbing s) = enterAbsorbing (absorbAll bs s) := by
  induction bs generalizing s with
  | nil => rw [absorbAll_nil, absorbAll_nil]
  | cons b bs ih => rw [absorbAll_cons, absorbAll_cons, ← ih, absorbByte_enterAbsorbing]

/-- The registers that absorbing bytes leaves alone (44_command_absorb.md R150). -/
theorem absorbAll_frame (bs : List Byte) (s : State) :
    (absorbAll bs s).fsm = s.fsm ∧ SameConfig s (absorbAll bs s) ∧ SameOutputs s (absorbAll bs s) ∧
      SameMicro s (absorbAll bs s) ∧ SamePort s (absorbAll bs s) := by
  induction bs generalizing s with
  | nil => simp [SameConfig, SameOutputs, SameMicro, SamePort]
  | cons b bs ih =>
    have h := ih (absorbByte s b)
    simpa only [absorbAll_cons, SameConfig, SameOutputs, SameMicro, SamePort, absorbByte_fsm, absorbByte_cfgValid,
      absorbByte_ds, absorbByte_keyEn, absorbByte_key, absorbByte_digest, absorbByte_digestValid, absorbByte_faultCause,
      absorbByte_nxt, absorbByte_round, absorbByte_phase, absorbByte_pt, absorbByte_tacc, absorbByte_inFlight,
      absorbByte_inputs, absorbByte_lat, absorbByte_draws] using h

/-- The length counter counts the bytes (10_state.md R28). -/
theorem absorbAll_totalLen (bs : List Byte) (s : State) :
    (absorbAll bs s).totalLen = s.totalLen + BitVec.ofNat 128 bs.length := by
  induction bs generalizing s with
  | nil => simp
  | cons b bs ih =>
    rw [absorbAll_cons, ih, absorbByte_totalLen, List.length_cons, Nat.add_comm, BitVec.ofNat_add, BitVec.add_assoc]
    rfl

/-- What a sequence of engine rounds does to the word array (42_arx_round_engine.md R126). -/
theorem roundSteps_w (p : BitVec 3) (a : Word) (rs : List Nat) (s : State) :
    (rs.foldl (roundStep p a) s).w = arxRounds s.wordsInUse s.w (rs.map fun r => rc r a (hashLength s.ds)) := by
  unfold arxRounds
  induction rs generalizing s with
  | nil => simp only [List.foldl_nil, List.map_nil]
  | cons r rs ih => simp only [List.foldl_cons, List.map_cons, ih, roundStep_w, roundStep_wordsInUse, roundStep_ds]

/-- What a sequence of engine rounds leaves alone: all but `W`, `NXT`, `ROUND` and `PHASE`. -/
theorem roundSteps_frame (p : BitVec 3) (a : Word) (rs : List Nat) (s : State) :
    ∃ w n r q, rs.foldl (roundStep p a) s = { s with w := w, nxt := n, round := r, phase := q } := by
  induction rs generalizing s with
  | nil => exact ⟨s.w, s.nxt, s.round, s.phase, by simp only [List.foldl_nil]⟩
  | cons r rs ih =>
    obtain ⟨w, n, q, p', h⟩ := ih (roundStep p a s r)
    exact ⟨w, n, q, p', by rw [List.foldl_cons, h]; simp only [roundStep]⟩

/-- `MainRounds()`: `W` becomes the main rounds of `W`, and nothing but `W` and the engine's registers changes. -/
theorem mainRounds_eq (s : State) :
    ∃ n r p, mainRounds s =
      { s with w := arxRounds (wordCount s.ds) s.w (mainConstants s), nxt := n, round := r, phase := p } := by
  obtain ⟨w, n, r, p, h⟩ := roundSteps_frame phaseMain s.nacc (List.range s.mainRoundCount) s
  have hw := roundSteps_w phaseMain s.nacc (List.range s.mainRoundCount) s
  refine ⟨n, r, p, ?_⟩
  rw [mainRounds, h]
  rw [h] at hw
  simp only at hw
  rw [hw]
  simp only [State.wordsInUse, State.mainRoundCount, mainConstants, hashLength]

/-- `ExtraRounds()`: likewise, with the constants of rounds R to R+3. -/
theorem extraRounds_eq (s : State) :
    ∃ n r p, extraRounds s =
      { s with w := arxRounds (wordCount s.ds) s.w (extraConstants s s.tacc), nxt := n, round := r, phase := p } := by
  obtain ⟨w, n, r, p, h⟩ := roundSteps_frame phaseExtra s.tacc ((List.range extraRoundCount).map (finRoundBase s.ds + ·)) s
  have hw := roundSteps_w phaseExtra s.tacc ((List.range extraRoundCount).map (finRoundBase s.ds + ·)) s
  refine ⟨n, r, p, ?_⟩
  rw [extraRounds, h]
  rw [h] at hw
  simp only at hw
  rw [hw]
  simp only [State.wordsInUse, finRoundBase, extraRoundCount, extraConstants, hashLength, List.map_map, Function.comp_def]

/-- The word array a FINALIZE leaves (45_command_finalize.md R165). -/
def finalWords (s : State) : Words :=
  arxRounds (wordCount s.ds)
    (xorWord (arxRounds (wordCount s.ds) s.w (mainConstants s)) 0 (lengthMixWord (bitLength s.totalLen)))
    (extraConstants s (noiseAcc (ptBytes (paddedTail s.tail s.totalLen)) s.seed))

/-- Everything the steps of FINALIZE do: `NXT` and `ROUND` apart, every register of the state they leave. -/
theorem finalizeSteps_eq (s : State) :
    ∃ n r, finalizeSteps s =
      { s with
        w := finalWords s
        digest := squeeze s.ds (finalWords s)
        digestValid := true
        fsm := .finalized
        pt := paddedTail s.tail s.totalLen
        tacc := noiseAcc (ptBytes (paddedTail s.tail s.totalLen)) s.seed
        phase := phaseIdle
        nxt := n
        round := r } := by
  obtain ⟨n, r, p, h⟩ := mainRounds_eq s
  obtain ⟨n', r', p', h'⟩ := extraRounds_eq (tailNoise (buildTail (lengthMix (mainRounds s))))
  refine ⟨n', BitVec.ofNat 8 (finRoundBase s.ds + extraRoundCount), ?_⟩
  rw [finalizeSteps, h', h]
  simp only [tailNoise, buildTail, lengthMix, presentDigest, goIdle, State.seed, extraConstants, finalWords]

end Sys2Proof.Machine
end

