-- ==== Sys2Proof/Laws/PerInstr.lean ====
section
/-! SUPPORT. Statements about every instruction as syntax, one lemma for each constructor. -/

namespace Sys2Proof.Laws.EncodesOpcode

/-- The canonical word of a command carries the command's opcode in `cmd[71:68]` (30_encoding.md R77). -/
def Statement (i : Instr) : Prop := opField (encode i) = opcodeOf i

/-- The opcode field of an assembled word. -/
theorem opField_assembleFields (op arg : BitVec 4) (data : Word) : opField (assembleFields op arg data) = op := by
  ext k hk
  simp only [opField, assembleFields, BitVec.getElem_extractLsb', BitVec.getLsbD_append]
  simp [show ¬ (68 + k < 64) by omega, show 68 + k - 64 - 4 = k by omega, show ¬ (68 + k - 64 < 4) by omega,
    BitVec.getLsbD_eq_getElem hk]

theorem init (ds : DigestSize) (keyEn : Bool) (key : Word) : Statement (.init ds keyEn key) :=
  opField_assembleFields _ _ _

theorem absorb (bytes : List Byte) : Statement (.absorb bytes) := opField_assembleFields _ _ _

theorem finalize : Statement .finalize := opField_assembleFields _ _ _

theorem reset : Statement .reset := opField_assembleFields _ _ _

end Sys2Proof.Laws.EncodesOpcode
end

