-- ==== Sys2Proof/Tests/Slice0.lean ====
section
/-! SUPPORT. The model's own tests: ill-formed terms refused, words written out from the spec's encoding decoded, one-step
tests with values from the spec, and for every statement with hypotheses a state and operands that meet them. -/

namespace Sys2Proof.Tests

open Sys2Proof.Machine

/-! ## Helpers -/

/-- The state an outcome goes on from. -/
def nextOf : Host.Outcome State Fault Refusal → State
  | .next s => s
  | .fault _ => State.reset
  | .refused _ => State.reset

/-- A core just configured without a key. -/
def fresh (ds : DigestSize) : State := enterFresh (configure ds false 0 State.reset)

/-- A core that has absorbed `bytes`. -/
def holding (ds : DigestSize) (bytes : List Byte) : State := enterAbsorbing (absorbAll bytes (fresh ds))

/-- A configured core in `FINALIZED`, with some digest on the port. -/
def finalized : State := { fresh .d128 with fsm := .finalized, digestValid := true, digest := 1#512 <<< 500 }

/-- The bytes of "abc". -/
def abc : List Byte := [0x61, 0x62, 0x63]

/-- A host that asserts `rst`. -/
def rstInput : PortIn := { rst := true, cmdValid := true, cmd := 0x30_0000000000000000 }

/-! ## Well-formedness -/

/-- INIT without a key but with a key operand (30_encoding.md R79). -/
theorem test_init_ill_formed : (Instr.init .d128 false 1).wellFormed = false := by decide

/-- ABSORB of nine bytes (30_encoding.md R80). -/
theorem test_absorb_ill_formed : (Instr.absorb (List.replicate 9 0)).wellFormed = false := by decide

theorem test_well_formed :
    [Instr.init .d512 true 1, .init .d128 false 0, .absorb (List.replicate 8 0), .finalize, .reset].map Instr.wellFormed
      = [true, true, true, true, true] := by decide

/-! ## Decoding: words written out from 30_encoding.md R79 to R82, R84, R90 and from 95_test_vectors.md V38 -/

/-- op = 0001, reserved 0, key_en 1, ds 01, key. -/
theorem test_decode_init :
    decode (0b0001#4 ++ 0b0101#4 ++ 0x0F1E2D3C4B5A6978#64) = .legal (.init .d256 true 0x0F1E2D3C4B5A6978) := by decide

/-- V38: without `key_en` the data field is ignored. -/
theorem test_decode_init_no_key :
    decode 0x10_00000000000000AA = .legal (.init .d128 false 0) ∧
    decode 0x14_00000000000000AA = .legal (.init .d128 true 0xAA) := by decide

/-- op = 0010, n = 3, three bytes left-aligned; V38: the low bits are ignored. -/
theorem test_decode_absorb :
    decode (0b0010#4 ++ 0b0011#4 ++ 0x616263FFFFFFFFFF#64) = .legal (.absorb abc) ∧
    decode 0x23_6162630000000000 = .legal (.absorb abc) := by decide

/-- op = 0011, arg 0; V38: the data field is ignored. -/
theorem test_decode_finalize : decode (0b0011#4 ++ 0b0000#4 ++ 0xFFFF#64) = .legal .finalize := by decide

/-- op = 0100, arg 0; the data field is ignored. -/
theorem test_decode_reset : decode (0b0100#4 ++ 0b0000#4 ++ 0x1#64) = .legal .reset := by decide

/-- V38: the words of cause 2. -/
theorem test_decode_illegal_field :
    [0x18_0000000000000000#72, 0x13_0000000000000000#72, 0x17_0000000000000000#72, 0x1B_0000000000000000#72,
      0x29_0000000000000000#72, 0x2F_0000000000000000#72, 0x3F_0000000000000000#72, 0x31_0000000000000000#72,
      0x41_0000000000000000#72].map decode = List.replicate 9 (.illegal .illegalField) := by decide

/-- V38: the words of cause 1. -/
theorem test_decode_illegal_opcode :
    [0x00_0000000000000000#72, 0x0F_0000000000000000#72, 0x50_0000000000000000#72, 0xF0_0000000000000000#72].map decode
      = List.replicate 4 (.illegal .illegalOpcode) := by decide

/-- 30_encoding.md R90, from the assembly line to the word. -/
theorem test_assemble :
    [AsmLine.init 256 none, .init 128 (some 0x0123456789ABCDEF), .init 256 (some 0), .absorb 3 0x6162630000000000,
      .finalize, .reset].map (fun l => (assembleLine l).map encode) =
    [some 0x11_0000000000000000, some 0x14_0123456789ABCDEF, some 0x15_0000000000000000, some 0x23_6162630000000000,
      some 0x30_0000000000000000, some 0x40_0000000000000000] := by decide

theorem test_table_word :
    decodeTableWord 72 0x23_6162630000000000 = some (.absorb abc) ∧ decodeTableWord 72 0x50_0000000000000000 = none := by
  decide

/-- The word placed for the next step is accepted and completed by it. -/
theorem test_fetch_word : (nextOf (step (State.reset.withFetchWord 72 0x11_0000000000000000))).fsm = .fresh := by decide

/-! ## The pure functions: 95_test_vectors.md V6, V10 to V28 -/

/-- V10. -/
theorem test_rotations :
    rotl 0x9E3779B97F4A7C15 1 = 0x3C6EF372FE94F82B ∧ rotl 0x9E3779B97F4A7C15 64 = 0x9E3779B97F4A7C15 ∧
    rotr 0x9E3779B97F4A7C15 16 = 0x7C159E3779B97F4A ∧ rotr 1 17 = 0x0000800000000000 := by decide

/-- V12, V15. -/
theorem test_noise :
    noise abc 5 prime none = 0xE5FD29F1E0AB6D46 ∧ noise abc 83 prime none = 0x4A7C782AD9E1B97F ∧
    noise abc 3 prime (some 0x0123456789ABCDEF) = 0x6789ABCE518DC75D ∧ noise [] 1 prime (some 0) = 2 := by decide +kernel

/-- V20, V21. -/
theorem test_round_constant :
    roundConstant 0 [] 32 none = 0xF34475861A739E8D ∧ roundConstant 83 abc 64 none = 0xD42230158E5D4805 ∧
    roundConstant 31 abc 16 none = 0x574C72C7EC7787A4 := by decide +kernel

/-- V28: the AND term, at size 128. -/
theorem test_round_and :
    let new := arxRound 25 (buildWords fun i => if i = 1 ∨ i = 2 then BitVec.allOnes 64 else 0) 0
    [0, 22, 23, 24, 3].map (getWord new) =
      [BitVec.allOnes 64, BitVec.allOnes 64, 0xFFFFFFFFFF7FFFFF, BitVec.allOnes 64, 0] := by decide +kernel

/-- V29: the indices that wrap, at size 512. -/
theorem test_round_wrap :
    [0, 2, 36, 39].map (getWord (arxRound 40 (buildWords fun i => BitVec.ofNat 64 i) 0)) =
      [0x0030000000000100, 0x0070000000000180, 0x04B0000012000000, 0x02900000000000C0] := by decide +kernel

/-- V35: the padded tail of seven bytes and of none. -/
theorem test_padded_tail :
    ptBytes (paddedTail 0x6162636465666700 7) =
      [0x61, 0x62, 0x63, 0x64, 0x65, 0x66, 0x67, 0x80] ++ List.replicate 15 0 ++ [0x38] ∧
    ptBytes (paddedTail 0 8) = [0x80] ++ List.replicate 22 0 ++ [0x40] := by decide +kernel

/-- V6. -/
theorem test_ct_eq :
    ctEq [] [] = true ∧ ctEq [] [0] = false ∧ ctEq [1, 1] [0, 0] = false ∧ ctEq [0, 0x80] [0, 0] = false ∧
    ctEq [0x61, 0x62] abc = false ∧ ctEq abc abc = true := by decide

/-! ## The commands, one step each -/

/-- 43_commands_init_reset.md R136, the worked example with a key. -/
theorem test_init :
    let t := nextOf (execute 0x14_0123456789ABCDEF State.reset)
    t.fsm = .fresh ∧ t.cfgValid = true ∧ t.ds = .d128 ∧ t.keyEn = true ∧ t.nacc = 0x0123456789ABCDEF := by decide

/-- R136 (d), (e): out of a fault, without a key. -/
theorem test_init_from_fault :
    let t := nextOf (execute 0x12_0000000000000001 (raiseFault .illegalOpcode State.reset))
    t.fsm = .fresh ∧ t.faultCause = .none ∧ t.key = 0 ∧ t.nacc = 0x9E3779B97F4A7C15 := by decide

/-- 44_command_absorb.md R150, the worked example. -/
theorem test_absorb :
    let t := nextOf (execute 0x23_6162630000000000 (fresh .d128))
    getWord t.w 0 = 0x6162630000000000 ∧ t.tail = 0x6162630000000000 ∧ t.nacc = 0x372FE94F8F055B6F ∧
      t.totalLen = 3 ∧ t.widx = 0 ∧ t.fsm = .absorbing := by decide +kernel

/-- 44_command_absorb.md R155 (c): bytes that straddle a chunk boundary. -/
theorem test_absorb_straddle :
    let t := nextOf (execute 0x28_060708090A0B0C0D (holding .d128 [1, 2, 3, 4, 5]))
    getWord t.w 0 = 0x0102030405060708 ∧ getWord t.w 1 = 0x090A0B0C0D000000 ∧ t.tail = 0x090A0B0C0D000000 ∧
      t.widx = 1 ∧ t.totalLen = 13 ∧ t.nacc = 0x705D566F0477345A := by decide +kernel

/-- 95_test_vectors.md V2, V37: the digest of "abc" at size 128, on the port. -/
theorem test_finalize :
    let t := nextOf (execute 0x30_0000000000000000 (holding .d128 abc))
    t.digest = 0x9637FDD98620B5025A30C57E63DE179F#512 <<< 384 ∧ t.digestValid = true ∧ t.fsm = .finalized := by
  decide +kernel

/-- 45_command_finalize.md R165: FINALIZE before any INIT faults with cause 3. -/
theorem test_finalize_not_configured :
    let t := nextOf (execute 0x30_0000000000000000 State.reset)
    t.fsm = .fault ∧ causeCode t.faultCause = 3 := by decide

/-- 43_commands_init_reset.md R137, the worked example: the key and the size stay. -/
theorem test_reset :
    let t := nextOf (execute 0x40_0000000000000000 { finalized with keyEn := true, key := 5 })
    t.fsm = .fresh ∧ t.digest = 0 ∧ t.digestValid = false ∧ t.nacc = 5 ∧ t.ds = .d128 := by decide +kernel

/-- P3 lines 3 and 6: RESET in `FAULT`, not configured and configured. -/
theorem test_reset_in_fault :
    (nextOf (execute 0x40_0000000000000000 (raiseFault .notConfigured State.reset))).faultCause = .notConfigured ∧
    (nextOf (execute 0x40_0000000000000000 (raiseFault .illegalField (fresh .d128)))).fsm = .fresh := by decide

/-- P3 line 10: ABSORB in `FINALIZED`; the digest is withdrawn. -/
theorem test_absorb_after_finalize :
    let t := nextOf (execute 0x21_6400000000000000 finalized)
    t.fsm = .fault ∧ causeCode t.faultCause = 4 ∧ t.digest = 0 ∧ t.digestValid = false := by decide +kernel

/-- P5: an edge with `rst` in the middle of a message, and the next RESET faults. -/
theorem test_hardware_reset :
    let t := nextOf (step { holding .d256 abc with keyEn := true, key := 7, inputs := [rstInput] })
    t.fsm = .unconf ∧ t.key = 0 ∧ t.totalLen = 0 ∧
      causeCode (nextOf (execute 0x40_0000000000000000 t)).faultCause = 3 := by decide

/-! ## Witnesses: for every statement with hypotheses, a state and operands that meet them -/

/-- A state of the invariant in `UNCONF`. -/
def unconfigured : State := { State.reset with lat := [⟨1, .d128, .unconf, 2⟩] }

/-- A core that takes two cycles for FINALIZE from `ABSORBING`, with a host that presents FINALIZE, then keeps still. -/
def slow : State :=
  { holding .d128 abc with
    lat := [⟨3, .d128, .absorbing, 2⟩]
    inputs := [commandInput 0x30_0000000000000000, idleInput, commandInput 0x40_0000000000000000] }

/-- A message whose length counter is at its last value. -/
def longest : State := { holding .d128 [] with totalLen := BitVec.allOnes 128, widx := 24 }

theorem inv_unconfigured : Inv unconfigured where
  unconf := by decide
  configured := by decide
  digestValid := by decide
  noDigest := by decide +kernel
  digestLow := fun k _ h => (by decide +kernel : ∀ k, k < 64 → digestByte unconfigured.digest k = 0) k h
  cause := by decide
  fresh := by decide
  freshWords := by decide
  widx := by decide
  tail := fun k _ h => (by decide +kernel : ∀ k, k < 8 → laneByte unconfigured.tail k = 0) k h
  key := by decide

theorem inv_fresh : Inv (fresh .d128) where
  unconf := by decide
  configured := by decide
  digestValid := by decide
  noDigest := by decide +kernel
  digestLow := fun k _ h => (by decide +kernel : ∀ k, k < 64 → digestByte (fresh .d128).digest k = 0) k h
  cause := by decide
  fresh := by decide
  freshWords := by decide +kernel
  widx := by decide
  tail := fun k _ h => (by decide +kernel : ∀ k, k < 8 → laneByte (fresh .d128).tail k = 0) k h
  key := by decide

theorem inv_finalized : Inv finalized where
  unconf := by decide
  configured := by decide
  digestValid := by decide
  noDigest := by decide +kernel
  digestLow := fun k h h' =>
    (by decide +kernel : ∀ k, k < 64 → 16 ≤ k → digestByte finalized.digest k = 0) k h' h
  cause := by decide
  fresh := by decide
  freshWords := by decide +kernel
  widx := by decide
  tail := fun k _ h => (by decide +kernel : ∀ k, k < 8 → laneByte finalized.tail k = 0) k h
  key := by decide

/-- A fault with the configuration kept. -/
theorem inv_faulted : Inv (raiseFault .illegalField (fresh .d128)) where
  unconf := by decide
  configured := by decide
  digestValid := by decide
  noDigest := by decide +kernel
  digestLow := fun k _ h =>
    (by decide +kernel : ∀ k, k < 64 → digestByte (raiseFault .illegalField (fresh .d128)).digest k = 0) k h
  cause := by decide
  fresh := by decide
  freshWords := by decide +kernel
  widx := by decide
  tail := fun k _ h =>
    (by decide +kernel : ∀ k, k < 8 → laneByte (raiseFault .illegalField (fresh .d128)).tail k = 0) k h
  key := by decide

/-- A fault before any INIT. -/
theorem inv_faulted_unconfigured : Inv (raiseFault .notConfigured unconfigured) where
  unconf := by decide
  configured := by decide
  digestValid := by decide
  noDigest := by decide +kernel
  digestLow := fun k _ h =>
    (by decide +kernel : ∀ k, k < 64 → digestByte (raiseFault .notConfigured unconfigured).digest k = 0) k h
  cause := by decide
  fresh := by decide
  freshWords := by decide +kernel
  widx := by decide
  tail := fun k _ h =>
    (by decide +kernel : ∀ k, k < 8 → laneByte (raiseFault .notConfigured unconfigured).tail k = 0) k h
  key := by decide

/-- The invariant says nothing of what the host drives. -/
theorem inv_inputs {s : State} (h : Inv s) (ins : List PortIn) : Inv { s with inputs := ins } :=
  ⟨h.1, h.2, h.3, h.4, h.5, h.6, h.7, h.8, h.9, h.10, h.11⟩

theorem accepts_holding : AcceptsMessage (holding .d128 abc) := by
  unfold AcceptsMessage
  decide

/-- HardwareResetFromEveryState, OutputsAfterResetEdge: while a command is in flight. -/
theorem test_witness_reset_edge :
    let s := { slow with inFlight := some ⟨0x30_0000000000000000, 1⟩, inputs := [rstInput, idleInput] }
    s.inputs = rstInput :: [idleInput] ∧ rstInput.rst = true := by decide

/-- PortsAreFunctionsOfState. -/
theorem test_witness_ports : Inv (fresh .d128) ∧ (fresh .d128).digestValid = false := ⟨inv_fresh, by decide⟩

/-- CommandAcceptedOnlyWhenReady: idle; accepted with latency 0; accepted with a latency; in flight; at its last edge. -/
theorem test_witness_accept :
    (State.reset.sampled.rst = false ∧ State.reset.inFlight = none ∧ State.reset.sampled.cmdValid = false) ∧
    (let s := { slow with lat := [] }
     s.sampled.rst = false ∧ s.inFlight = none ∧ s.sampled.cmdValid = true ∧ s.latency s.sampled.cmd = 0) ∧
    (slow.sampled.rst = false ∧ slow.inFlight = none ∧ slow.sampled.cmdValid = true ∧
      slow.latency slow.sampled.cmd = 1 + 1) ∧
    (let s := { slow with inFlight := some ⟨0x30_0000000000000000, 0 + 1⟩ }
     s.sampled.rst = false ∧ s.inFlight = some ⟨0x30_0000000000000000, 0 + 1⟩) ∧
    (let s := { slow with inFlight := some ⟨0x30_0000000000000000, 0⟩ }
     s.sampled.rst = false ∧ s.inFlight = some ⟨0x30_0000000000000000, 0⟩) := by decide

/-- LatencyThenWholeEffect: latency 2, and latency 0. -/
theorem test_witness_latency :
    (slow.inFlight = none ∧
      slow.inputs = commandInput 0x30_0000000000000000 :: ([idleInput, commandInput 0x40_0000000000000000] ++ []) ∧
      [idleInput, commandInput 0x40_0000000000000000].length = slow.latency 0x30_0000000000000000 ∧
      ∀ p ∈ [idleInput, commandInput 0x40_0000000000000000], p.rst = false) ∧
    (let s := { fresh .d512 with inputs := [commandInput 0x20_0000000000000000] }
     s.inFlight = none ∧ s.inputs = commandInput 0x20_0000000000000000 :: ([] ++ []) ∧
      ([] : List PortIn).length = s.latency 0x20_0000000000000000) := by decide

/-- LatencyIndependentOfData: another message, another word of the same opcode. -/
theorem test_witness_latency_data :
    let t := { holding .d128 [0] with lat := slow.lat }
    slow.lat = t.lat ∧ slow.ds = t.ds ∧ slow.fsm = t.fsm ∧
      opField 0x21_6100000000000000 = opField 0x22_FFFF000000000000 := by decide

/-- StepRunsDecodedInstruction, both clauses; FetchedWordRunsNext. -/
theorem test_witness_step :
    decode 0x30_0000000000000000 = .legal .finalize ∧
    (let s := { slow with lat := [] }
     s.inFlight = none ∧ s.sampled = commandInput 0x30_0000000000000000 ∧ s.latency 0x30_0000000000000000 = 0) ∧
    (let s := { slow with inFlight := some ⟨0x30_0000000000000000, 0⟩ }
     s.inFlight = some ⟨0x30_0000000000000000, 0⟩ ∧ s.sampled.rst = false) ∧
    0x10_00000000000000AA < 2 ^ 72 ∧ decodeTableWord 72 0x10_00000000000000AA = some (.init .d128 false 0) := by decide

/-- DecodeEncodeRoundTrip: the operands at both ends. -/
theorem test_witness_round_trip :
    (Instr.absorb []).wellFormed = true ∧ (Instr.absorb (List.replicate 8 0xFF)).wellFormed = true ∧
    (Instr.init .d512 true (BitVec.allOnes 64)).wellFormed = true ∧ (Instr.init .d128 false 0).wellFormed = true ∧
    Instr.finalize.wellFormed = true ∧ Instr.reset.wellFormed = true := by decide

/-- EncodeDecodeKeepsUsedBits, IgnoredBitsHaveNoEffect: two words of one command. -/
theorem test_witness_ignored_bits :
    decode 0x23_6162630000000000 = .legal (.absorb abc) ∧
    0x23_616263FFFFFFFFFF#72 &&& usedBits (.absorb abc) = 0x23_6162630000000000#72 &&& usedBits (.absorb abc) := by decide

/-- IllegalWordsAreExactlyTheListed, the last clause: in `FAULT` and outside. -/
theorem test_witness_illegal :
    decode 0x50_0000000000000000 = .illegal .illegalOpcode ∧ decode 0x29_0000000000000000 = .illegal .illegalField ∧
    (raiseFault .notConfigured State.reset).fsm = .fault ∧ State.reset.fsm ≠ .fault := by decide

/-- FaultEntryIsPrecise, CausesByOpcode: an illegal opcode, and each opcode's fault, from outside `FAULT`. -/
theorem test_witness_fault_entry :
    let raised (w : CmdWord) (s : State) (c : Cause) :=
      s.fsm ≠ .fault ∧ execute w s = .next (raiseFault c s) ∧ (raiseFault c s).fsm = .fault
    raised 0x50_0000000000000000 State.reset .illegalOpcode ∧ raised 0x13_0000000000000000 State.reset .illegalField ∧
    raised 0x21_6100000000000000 finalized .absorbAfterFinalize ∧
    raised 0x30_0000000000000000 State.reset .notConfigured ∧
    raised 0x41_0000000000000000 (fresh .d128) .illegalField := by
  refine ⟨⟨by decide, rfl, rfl⟩, ⟨by decide, rfl, rfl⟩, ⟨by decide, rfl, rfl⟩, ⟨by decide, rfl, rfl⟩,
    ⟨by decide, rfl, rfl⟩⟩

/-- CausesByOpcode, the second clause: a malformed word in `ABSORBING`. -/
theorem test_witness_fault_absorbing :
    AcceptsMessage (holding .d128 abc) ∧
    execute 0x29_0000000000000000 (holding .d128 abc) = .next (raiseFault .illegalField (holding .d128 abc)) ∧
    (raiseFault .illegalField (holding .d128 abc)).fsm = .fault := ⟨accepts_holding, rfl, rfl⟩

/-- FaultEntryIsPrecise, FaultStateDropsWords: in `FAULT`, a dropped word, an unconfigured RESET, and an INIT. -/
theorem test_witness_fault_state :
    let s := raiseFault .notConfigured State.reset
    s.fsm = .fault ∧ execute 0x30_0000000000000000 s = .next s ∧
    (∀ ds e k, decode 0x40_0000000000000000 ≠ .legal (.init ds e k)) ∧
    (decode 0x40_0000000000000000 = .legal .reset → s.cfgValid = false) ∧
    decode 0x11_0000000000000000 = .legal (.init .d256 false 0) := by
  refine ⟨rfl, rfl, ?_, fun _ => rfl, by decide⟩
  intro ds e k h
  have h' : decode 0x40_0000000000000000 = .legal .reset := by decide
  nomatch h'.symm.trans h

/-- OnlyInitResetOrRstLeaveFault: a step that leaves `FAULT` by INIT, and one by `rst`. -/
theorem test_witness_leave_fault :
    (let s := { raiseFault .illegalField (fresh .d128) with inputs := [commandInput 0x11_0000000000000000] }
     s.fsm = .fault ∧ ∃ t, step s = .next t ∧ t.fsm ≠ .fault) ∧
    (let s := { raiseFault .illegalField (fresh .d128) with inputs := [rstInput] }
     s.fsm = .fault ∧ ∃ t, step s = .next t ∧ t.fsm ≠ .fault) :=
  ⟨⟨rfl, _, rfl, by decide⟩, ⟨rfl, _, rfl, by decide⟩⟩

/-- TransitionTable, one state for each clause: `UNCONF`, `FINALIZED`, `FAULT` without and with a configuration, an illegal
word, an edge with `rst`. -/
theorem test_witness_transition :
    (Inv unconfigured ∧ unconfigured.fsm = .unconf ∧ exec .reset unconfigured = .next (raiseFault .notConfigured unconfigured) ∧
      (raiseFault .notConfigured unconfigured).fsm = .fault) ∧
    (Inv finalized ∧ finalized.fsm = .finalized ∧ ∃ t, exec (.absorb []) finalized = .next t) ∧
    (Inv (raiseFault .notConfigured unconfigured) ∧ (raiseFault .notConfigured unconfigured).fsm = .fault ∧
      (raiseFault .notConfigured unconfigured).cfgValid = false) ∧
    (Inv (raiseFault .illegalField (fresh .d128)) ∧ (raiseFault .illegalField (fresh .d128)).fsm = .fault) ∧
    decode 0x00_0000000000000000 = .illegal .illegalOpcode ∧
    (Inv { unconfigured with inputs := [rstInput] } ∧
      (State.sampled { unconfigured with inputs := [rstInput] }).rst = true) :=
  ⟨⟨inv_unconfigured, rfl, rfl, rfl⟩, ⟨inv_finalized, rfl, _, rfl⟩, ⟨inv_faulted_unconfigured, rfl, rfl⟩,
    ⟨inv_faulted, rfl⟩, by decide, ⟨inv_inputs inv_unconfigured _, rfl⟩⟩

/-- InitResult, the malformed words: bit 67, and size code 11, outside `FAULT`. -/
theorem test_witness_init :
    opField 0x18_0000000000000000 = 0x1#4 ∧ (0x18_0000000000000000#72).getLsbD 67 = true ∧
    opField 0x13_0000000000000000 = 0x1#4 ∧ (0x13_0000000000000000#72).extractLsb' 64 2 = 0b11#2 ∧
    (fresh .d128).fsm ≠ .fault := by decide

/-- ResetCommandResult: each clause. -/
theorem test_witness_reset :
    finalized.cfgValid = true ∧
    ((raiseFault .notConfigured State.reset).cfgValid = false ∧ (raiseFault .notConfigured State.reset).fsm = .fault) ∧
    (State.reset.cfgValid = false ∧ State.reset.fsm ≠ .fault) ∧
    (opField 0x41_0000000000000000 = 0x4#4 ∧ (0x41_0000000000000000#72).extractLsb' 64 4 ≠ 0x0#4) := by decide

/-- ResetEqualsInit, ResetInFreshChangesNothing, AbsorbedRegistersTrackMessage. -/
theorem test_witness_fresh :
    (Inv finalized ∧ finalized.cfgValid = true) ∧ (Inv (fresh .d128) ∧ (fresh .d128).fsm = .fresh) ∧
    ([[0x61, 0x62], [], [0x63]] : List (List Byte)).flatten.length < 2 ^ 128 :=
  ⟨⟨inv_finalized, rfl⟩, ⟨inv_fresh, rfl⟩, by decide⟩

/-- AbsorbByteEffect: lane 7, and a lane below it. -/
theorem test_witness_absorb_byte :
    ((holding .d128 [1, 2, 3, 4, 5, 6, 7]).widx.toNat < wordCount .d128 ∧
      (holding .d128 [1, 2, 3, 4, 5, 6, 7]).totalLen.toNat % 8 = 7) ∧
    ((holding .d128 abc).widx.toNat < wordCount .d128 ∧ (holding .d128 abc).totalLen.toNat % 8 ≠ 7) := by decide +kernel

/-- AbsorbOutcomes: each clause. -/
theorem test_witness_absorb_outcomes :
    AcceptsMessage (holding .d128 abc) ∧ (raiseFault .illegalField (fresh .d128)).fsm = .fault ∧
    (State.reset.fsm ≠ .fault ∧ State.reset.cfgValid = false) ∧ (finalized.cfgValid = true ∧ finalized.fsm = .finalized) ∧
    (opField 0x29_0000000000000000 = 0x2#4 ∧ 8 < ((0x29_0000000000000000#72).extractLsb' 64 4).toNat) :=
  ⟨accepts_holding, rfl, by decide, by decide, by decide⟩

/-- AbsorbFrame: bytes up to the end of the chunk, and bytes past it. -/
theorem test_witness_absorb_frame :
    AcceptsMessage (holding .d128 abc) ∧ ([1, 2, 3, 4, 5] : List Byte).length ≤ 8 ∧
    (holding .d128 abc).widx.toNat < wordCount (holding .d128 abc).ds ∧
    (holding .d128 abc).totalLen.toNat % 8 + ([1, 2, 3, 4, 5] : List Byte).length ≤ 8 ∧
    (List.replicate 8 (0 : Byte)).length ≤ 8 := ⟨accepts_holding, by decide +kernel⟩

/-- EngineRegistersChangeOnlyInFinalize: an INIT after a FINALIZE. -/
theorem test_witness_engine_registers :
    decode 0x10_0000000000000000 ≠ .legal .finalize ∧ ∃ t, execute 0x10_0000000000000000 finalized = .next t :=
  ⟨by decide, _, rfl⟩

/-- ChunkingTransparency, AbsorbNothing: "ab" and "c" against "abc". -/
theorem test_witness_chunking :
    AcceptsMessage (holding .d128 abc) ∧ ([[0x61, 0x62], [0x63]] : List (List Byte)) ≠ [] ∧ [abc] ≠ [] ∧
    ([[0x61, 0x62], [0x63]] : List (List Byte)).flatten = [abc].flatten := ⟨accepts_holding, by decide⟩

/-- LengthWrapsSilently: the last value of the length counter, which is also the last of the multiplier's. -/
theorem test_witness_wrap :
    AcceptsMessage longest ∧ longest.widx.toNat < wordCount longest.ds ∧ longest.totalLen = BitVec.allOnes 128 ∧
    longest.totalLen.setWidth 64 = BitVec.allOnes 64 := by
  unfold AcceptsMessage
  decide +kernel

/-- RotationAmountsModulo64: an amount over 64. -/
theorem test_witness_rotation : 65 % 64 ≠ 0 := by decide

/-- RoundFormula, RoundReadsFourNeighbours: the last word in use and the first unused one; two arrays that differ outside. -/
theorem test_witness_round :
    (24 < wordCount .d128 ∧ wordCount .d128 ≤ 25) ∧
    (∀ k, k < 5 → getWord (buildWords fun _ => 0) ((24 + k) % 25) =
      getWord (buildWords fun i => if i = 10 then 1 else 0) ((24 + k) % 25)) ∧
    ((3 : Nat) < 5 ∧ (24 + 3) % wordCount .d128 = (24 + 3) % wordCount .d128) := by decide +kernel

/-- EqualWordsStayEqual: all words 5, and all 0. -/
theorem test_witness_equal_words :
    (∀ i, i < wordCount .d256 → getWord (buildWords fun _ => 5) i = 5) ∧
    (∀ i, i < wordCount .d256 → getWord (buildWords fun _ => 0) i = 0) := by decide +kernel

/-- FinalizeResult: each clause. -/
theorem test_witness_finalize :
    AcceptsMessage (holding .d128 abc) ∧ (raiseFault .illegalField (fresh .d128)).fsm = .fault ∧
    (State.reset.fsm ≠ .fault ∧ State.reset.cfgValid = false) ∧ (finalized.cfgValid = true ∧ finalized.fsm = .finalized) ∧
    (opField 0x31_0000000000000000 = 0x3#4 ∧ (0x31_0000000000000000#72).extractLsb' 64 4 ≠ 0x0#4) :=
  ⟨accepts_holding, rfl, by decide, by decide, by decide⟩

/-- SqueezeLayout: the last digest byte and word at size 128, and the first byte past them. -/
theorem test_witness_squeeze : 15 < outLen .d128 ∧ 1 < outLen .d128 / 8 ∧ outLen .d128 ≤ 16 ∧ 16 < 64 := by decide

/-- PaddedTailLayout: the tail of "abc", and a tail of seven bytes. -/
theorem test_witness_padded_tail :
    (∀ k, k < 8 → (3#128).toNat % 8 ≤ k → laneByte 0x6162630000000000 k = 0) ∧
    (∀ k, k < 8 → (7#128).toNat % 8 ≤ k → laneByte 0x6162636465666700 k = 0) := by decide

/-- FinalizeIdempotent. -/
theorem test_witness_finalized : Inv finalized ∧ finalized.fsm = .finalized := ⟨inv_finalized, rfl⟩

/-- DigestOfEverySplit: both clauses. -/
theorem test_witness_digest :
    ([[0x61, 0x62], [], [0x63]] : List (List Byte)).flatten.length < 2 ^ 125 ∧ finalized.cfgValid = true := by decide

/-- AbsorbXDeliversMessage, AssemblerRefusesWhatDoesNotFit: the empty message, one with a full group; a line taken, lines
refused. -/
theorem test_witness_assembler :
    8 * (0 + 1) ≤ (List.replicate 9 (0 : Byte)).length ∧ List.replicate 9 (0 : Byte) ≠ [] ∧
    assembleLine (.absorb 8 (2 ^ 64 - 1)) = some (.absorb (List.replicate 8 0xFF)) ∧
    assembleLine (.absorb 9 0) = none ∧ assembleLine (.init 384 none) = none ∧
    assembleLine (.init 256 (some (2 ^ 64))) = none := by decide

/-- EveryStepKeepsInv, ConfigurationChangesOnlyByInit: an edge at which a fault is taken. -/
theorem test_witness_step_inv :
    let s := { fresh .d128 with inputs := [commandInput 0x50_0000000000000000] }
    Inv s ∧ ∃ t, step s = .next t ∧ t.fsm = .fault :=
  ⟨inv_inputs inv_fresh _, _, rfl, rfl⟩

/-- NoHiddenInputs. -/
theorem test_witness_no_hidden_inputs : decode 0x16_0000000000000001 = .legal (.init .d512 true 1) := by decide

/-- UnusedWordsNeverWritten: an INIT of a smaller size than before. -/
theorem test_witness_unused_words :
    (fresh .d512).widx.toNat < wordCount (fresh .d512).ds ∧ ∃ t, execute 0x10_0000000000000000 (fresh .d512) = .next t :=
  ⟨by decide, _, rfl⟩

/-- KeyEntersOnlyAsSeed: no key and the prime as a key have one seed. -/
theorem test_witness_seed :
    AcceptsMessage (holding .d128 abc) ∧ seedOf true 0x9E3779B97F4A7C15 = (holding .d128 abc).seed ∧
    (∃ t, exec .finalize (holding .d128 abc) = .next t) ∧ ∃ t, exec (.absorb abc) (holding .d128 abc) = .next t :=
  ⟨accepts_holding, by decide +kernel, ⟨_, rfl⟩, ⟨_, rfl⟩⟩

end Sys2Proof.Tests
end

section
/-! PROOF. The rotations of 00_scope.md R11. -/

namespace Sys2Proof.Machine

/-- By 0 the library's rotation still shifts by 64 bits, which leaves nothing; R11's branch gives the word itself. -/
theorem rotl_eq_rotateLeft (x : Word) (n : Nat) : rotl x n = x.rotateLeft n := by
  rw [rotl, BitVec.rotateLeft_def]
  split
  case isTrue hzero => simp [hzero, BitVec.ushiftRight_eq_zero]
  case isFalse => rfl

theorem rotr_eq_rotateRight (x : Word) (n : Nat) : rotr x n = x.rotateRight n := by
  rw [rotr, BitVec.rotateRight_def]
  split
  case isTrue hzero => simp [hzero]
  case isFalse => rfl

/-- The two shifted halves are the same, in the other order. -/
theorem rotr_eq_rotl_complement (x : Word) {n : Nat} (hn : n % 64 ≠ 0) : rotr x n = rotl x (64 - n % 64) := by
  have hmod : (64 - n % 64) % 64 = 64 - n % 64 := Nat.mod_eq_of_lt (by omega)
  have hback : 64 - (64 - n % 64) = n % 64 := by omega
  have hcomp : 64 - n % 64 ≠ 0 := by omega
  simp only [rotr, rotl, hmod, hback, if_neg hn, if_neg hcomp]
  exact BitVec.or_comm _ _

@[simp] theorem rotr_rotl (x : Word) (n : Nat) : rotr (rotl x n) n = x := by
  rw [rotr_eq_rotateRight, rotl_eq_rotateLeft]
  ext i hi
  rw [BitVec.getElem_rotateRight]
  split
  -- Bit `i` comes from bit `n % 64 + i` of the rotated word, which the left rotation did not wrap around.
  case isTrue hlow => simp [BitVec.getElem_rotateLeft]
  -- Bit `i` comes from bit `i - (64 - n % 64)` of the rotated word, where the left rotation put the top bits of `x`.
  case isFalse hhigh =>
    have hwrapped : i - (64 - n % 64) < n % 64 := by omega
    have hsource : 64 - n % 64 + (i - (64 - n % 64)) = i := by omega
    simp [BitVec.getElem_rotateLeft, hwrapped, hsource]

/-- Settles O35, from the model's rotations being the library's. -/
theorem rotationAmountsModulo64 : Obligations.RotationAmountsModulo64 := fun x n =>
  ⟨rotl_zero x, rotr_zero x, rotl_eq_rotateLeft x n, rotr_eq_rotateRight x n, rotr_eq_rotl_complement x, rotr_rotl x n⟩

end Sys2Proof.Machine
end

section
/-! PROOF. The bytes of the digest port (20_memory.md R59; 45_command_finalize.md R173). -/

namespace Sys2Proof.Machine

@[simp] theorem digestByte_zero (k : Nat) : digestByte 0#512 k = 0#8 := by simp [digestByte]

/-- Digest byte `j` after digest byte `k` has been put in. -/
theorem digestByte_putDigestByte (d : BitVec 512) (b : Byte) {j k : Nat} (hj : j < 64) (hk : k < 64) :
    digestByte (putDigestByte d k b) j = digestByte d j ||| if j = k then b else 0 := by
  have hbyte : digestByte (b.setWidth 512 <<< (504 - 8 * k)) j = if j = k then b else 0 := by
    ext i hi
    simp only [digestByte, BitVec.getElem_extractLsb', BitVec.getLsbD_shiftLeft, BitVec.getLsbD_setWidth]
    split
    case isTrue hjk =>
      have hpos : 504 - 8 * j + i - (504 - 8 * k) = i := by omega
      have hlow : ¬ 504 - 8 * j + i < 504 - 8 * k := by omega
      simp [hpos, hlow, show 504 - 8 * j + i < 512 by omega, show i < 512 by omega, BitVec.getLsbD_eq_getElem hi]
    case isFalse hjk =>
      by_cases hlow : 504 - 8 * j + i < 504 - 8 * k
      · simp [hlow]
      · have hhigh : 8 ≤ 504 - 8 * j + i - (504 - 8 * k) := by omega
        simp [BitVec.getLsbD_of_ge _ _ hhigh]
  rw [← hbyte]
  simp only [digestByte, putDigestByte, BitVec.extractLsb'_or]

/-- The first `n` bytes put into a digest of zeros, read back. -/
theorem digestByte_putBytes (f : Nat → Byte) {n j : Nat} (hn : n ≤ 64) (hj : j < 64) :
    digestByte ((List.range n).foldl (fun d k => putDigestByte d k (f k)) 0) j = if j < n then f j else 0 := by
  induction n with
  | zero => simp
  | succ n ih =>
    rw [List.range_succ, List.foldl_append, List.foldl_cons, List.foldl_nil,
      digestByte_putDigestByte _ _ hj (by omega), ih (by omega)]
    rcases Nat.lt_trichotomy j n with hlt | heq | hgt
    · simp [hlt, Nat.lt_succ_of_lt hlt, Nat.ne_of_lt hlt]
    · simp [heq]
    · simp [Nat.not_lt.mpr hgt.le, Nat.ne_of_gt hgt, show ¬ j < n + 1 by omega]

/-- The digest port after a squeeze, byte by byte. -/
theorem digestByte_squeeze (ds : DigestSize) (w : Words) {k : Nat} (hk : k < 64) :
    digestByte (squeeze ds w) k = if k < outLen ds then squeezeByte ds w k else 0 :=
  digestByte_putBytes (squeezeByte ds w) (outLen_le_port ds) hk

end Sys2Proof.Machine
end

section
/-! PROOF. The outcome of each command in each case of its checks, and everything an accepted word can leave. -/

namespace Sys2Proof.Machine

/-! ### The commands, one equation per case of their checks -/

theorem execAbsorb_of_fault {s : State} (bs : List Byte) (hf : s.fsm = .fault) : execAbsorb bs s = .next s := by
  simp [execAbsorb, hf]

theorem execAbsorb_of_notConfigured {s : State} (bs : List Byte) (hf : s.fsm ≠ .fault) (hc : s.cfgValid = false) :
    execAbsorb bs s = .next (raiseFault .notConfigured s) := by
  simp [execAbsorb, hf, hc]

theorem execAbsorb_of_finalized {s : State} (bs : List Byte) (hf : s.fsm = .finalized) (hc : s.cfgValid = true) :
    execAbsorb bs s = .next (raiseFault .absorbAfterFinalize s) := by
  simp [execAbsorb, hf, hc]

theorem execAbsorb_of_accepting {s : State} (bs : List Byte) (hf : s.fsm ≠ .fault) (hn : s.fsm ≠ .finalized)
    (hc : s.cfgValid = true) : execAbsorb bs s = .next (enterAbsorbing (absorbAll bs s)) := by
  simp [execAbsorb, hf, hn, hc]

theorem execFinalize_of_fault {s : State} (hf : s.fsm = .fault) : execFinalize s = .next s := by
  simp [execFinalize, hf]

theorem execFinalize_of_notConfigured {s : State} (hf : s.fsm ≠ .fault) (hc : s.cfgValid = false) :
    execFinalize s = .next (raiseFault .notConfigured s) := by
  simp [execFinalize, hf, hc]

theorem execFinalize_of_finalized {s : State} (hf : s.fsm = .finalized) (hc : s.cfgValid = true) :
    execFinalize s = .next s := by
  simp [execFinalize, hf, hc]

theorem execFinalize_of_accepting {s : State} (hf : s.fsm ≠ .fault) (hn : s.fsm ≠ .finalized) (hc : s.cfgValid = true) :
    execFinalize s = .next (finalizeSteps s) := by
  simp [execFinalize, hf, hn, hc]

theorem execReset_of_fault {s : State} (hf : s.fsm = .fault) (hc : s.cfgValid = false) : execReset s = .next s := by
  simp [execReset, hf, hc]

theorem execReset_of_notConfigured {s : State} (hf : s.fsm ≠ .fault) (hc : s.cfgValid = false) :
    execReset s = .next (raiseFault .notConfigured s) := by
  simp [execReset, hf, hc]

theorem execReset_of_configured {s : State} (hc : s.cfgValid = true) : execReset s = .next (enterFresh s) := by
  simp [execReset, hc]

/-- Every command completes: no meaning stops the machine (log 18). -/
theorem exec_answers_next (i : Instr) (s : State) : ∃ t, exec i s = .next t := by
  cases i with
  | init ds e k => exact ⟨_, rfl⟩
  | absorb bs => simp only [exec, execAbsorb]; split_ifs <;> exact ⟨_, rfl⟩
  | finalize => simp only [exec, execFinalize]; split_ifs <;> exact ⟨_, rfl⟩
  | reset => simp only [exec, execReset]; split_ifs <;> exact ⟨_, rfl⟩

/-! ### The registers that FINALIZE leaves, field by field -/

@[simp] theorem finalizeSteps_w (s : State) : (finalizeSteps s).w = finalWords s := by
  obtain ⟨_, _, heq⟩ := finalizeSteps_eq s
  rw [heq]

@[simp] theorem finalizeSteps_fsm (s : State) : (finalizeSteps s).fsm = .finalized := by
  obtain ⟨_, _, heq⟩ := finalizeSteps_eq s
  rw [heq]

@[simp] theorem finalizeSteps_cfgValid (s : State) : (finalizeSteps s).cfgValid = s.cfgValid := by
  obtain ⟨_, _, heq⟩ := finalizeSteps_eq s
  rw [heq]

@[simp] theorem finalizeSteps_ds (s : State) : (finalizeSteps s).ds = s.ds := by
  obtain ⟨_, _, heq⟩ := finalizeSteps_eq s
  rw [heq]

@[simp] theorem finalizeSteps_keyEn (s : State) : (finalizeSteps s).keyEn = s.keyEn := by
  obtain ⟨_, _, heq⟩ := finalizeSteps_eq s
  rw [heq]

@[simp] theorem finalizeSteps_key (s : State) : (finalizeSteps s).key = s.key := by
  obtain ⟨_, _, heq⟩ := finalizeSteps_eq s
  rw [heq]

@[simp] theorem finalizeSteps_totalLen (s : State) : (finalizeSteps s).totalLen = s.totalLen := by
  obtain ⟨_, _, heq⟩ := finalizeSteps_eq s
  rw [heq]

@[simp] theorem finalizeSteps_widx (s : State) : (finalizeSteps s).widx = s.widx := by
  obtain ⟨_, _, heq⟩ := finalizeSteps_eq s
  rw [heq]

@[simp] theorem finalizeSteps_tail (s : State) : (finalizeSteps s).tail = s.tail := by
  obtain ⟨_, _, heq⟩ := finalizeSteps_eq s
  rw [heq]

@[simp] theorem finalizeSteps_digest (s : State) : (finalizeSteps s).digest = squeeze s.ds (finalWords s) := by
  obtain ⟨_, _, heq⟩ := finalizeSteps_eq s
  rw [heq]

@[simp] theorem finalizeSteps_digestValid (s : State) : (finalizeSteps s).digestValid = true := by
  obtain ⟨_, _, heq⟩ := finalizeSteps_eq s
  rw [heq]

@[simp] theorem finalizeSteps_faultCause (s : State) : (finalizeSteps s).faultCause = s.faultCause := by
  obtain ⟨_, _, heq⟩ := finalizeSteps_eq s
  rw [heq]

@[simp] theorem finalizeSteps_lane (s : State) : (finalizeSteps s).lane = s.lane := by
  rw [State.lane, finalizeSteps_totalLen, State.lane]

/-! ### What decoding can refuse -/

/-- A refused word has a cause (30_encoding.md R84): no branch of the decoder answers `Illegal` with code 0. -/
theorem decode_illegal_ne_none {w : CmdWord} {c : Cause} (h : decode w = .illegal c) : c ≠ .none := by
  rintro rfl
  simp only [decode, decodeInit, decodeAbsorb, decodeBare] at h
  repeat' split at h
  all_goals cases h

/-! ### Everything an accepted word can leave -/

/-- The states an accepted word can leave, each with what must have held of the word or the state before. -/
inductive ExecuteEffect (w : CmdWord) (s : State) : State → Prop where
  /-- A word dropped in `FAULT`, or a FINALIZE in `FINALIZED`. -/
  | unchanged : ExecuteEffect w s s
  /-- A refused word (60_exceptions.md R204). -/
  | refused (c : Cause) (hf : s.fsm ≠ .fault) (hcause : c ≠ .none) : ExecuteEffect w s (raiseFault c s)
  /-- INIT. -/
  | init (ds : DigestSize) (e : Bool) (k : Word) (hw : decode w = .legal (.init ds e k)) :
      ExecuteEffect w s (enterFresh (configure ds e k s))
  /-- RESET of a configured core. -/
  | reset (hc : s.cfgValid = true) : ExecuteEffect w s (enterFresh s)
  /-- ABSORB, past its checks. -/
  | absorb (bs : List Byte) (hf : s.fsm ≠ .fault) (hn : s.fsm ≠ .finalized) (hc : s.cfgValid = true) :
      ExecuteEffect w s (enterAbsorbing (absorbAll bs s))
  /-- FINALIZE, past its checks. -/
  | finalize (hf : s.fsm ≠ .fault) (hn : s.fsm ≠ .finalized) (hc : s.cfgValid = true) :
      ExecuteEffect w s (finalizeSteps s)

theorem execute_effect {w : CmdWord} {s t : State} (h : execute w s = .next t) : ExecuteEffect w s t := by
  rcases execute_cases h with ⟨i, hw, hi⟩ | ⟨c, hw, rfl⟩
  · cases i with
    | init ds e k =>
      rw [execInit_next hi]
      exact .init ds e k hw
    | absorb bs =>
      rcases execAbsorb_cases hi with ⟨_, rfl⟩ | ⟨hf, _, rfl⟩ | ⟨hn, _, rfl⟩ | ⟨hf, hn, hc, rfl⟩
      · exact .unchanged
      · exact .refused _ hf (by decide)
      · exact .refused _ (by simp [hn]) (by decide)
      · exact .absorb bs hf hn hc
    | finalize =>
      rcases execFinalize_cases hi with ⟨_, rfl⟩ | ⟨hf, _, rfl⟩ | ⟨_, _, rfl⟩ | ⟨hf, hn, hc, rfl⟩
      · exact .unchanged
      · exact .refused _ hf (by decide)
      · exact .unchanged
      · exact .finalize hf hn hc
    | reset =>
      rcases execReset_cases hi with ⟨_, _, rfl⟩ | ⟨_, hf, rfl⟩ | ⟨hc, rfl⟩
      · exact .unchanged
      · exact .refused _ hf (by decide)
      · exact .reset hc
  · rcases refuseIllegal_cases c s with ⟨_, hr⟩ | ⟨hf, hr⟩
    · rw [hr]
      exact .unchanged
    · rw [hr]
      exact .refused c hf (decode_illegal_ne_none hw)

end Sys2Proof.Machine
end

section
/-! PROOF. The invariant of 10_state.md R37: at reset, and over every edge. -/

namespace Sys2Proof.Machine

/-! ### The position of the next message byte -/

theorem lane_lt (s : State) : s.lane < 8 := Nat.mod_lt _ (by decide)

/-- The lane goes round with the length, also where the length wraps, 2^128 being a multiple of 8. -/
@[simp] theorem absorbByte_lane (s : State) (b : Byte) : (absorbByte s b).lane = (s.lane + 1) % 8 := by
  have hone : (1 : BitVec 128).toNat = 1 := rfl
  simp only [State.lane, absorbByte_totalLen, BitVec.toNat_add, hone]
  omega

theorem nextWidx_toNat {n : Nat} (hn : 0 < n) (h64 : n ≤ 64) (x : BitVec 6) :
    (nextWidx n x).toNat = (x.toNat + 1) % n := by
  have hlt := Nat.mod_lt (x.toNat + 1) hn
  rw [nextWidx, BitVec.toNat_ofNat, Nat.mod_eq_of_lt (by omega)]

/-- `WIDX` stays below N (10_state.md R29). -/
theorem absorbByte_widx_lt {s : State} (h : s.widx.toNat < wordCount s.ds) (b : Byte) :
    (absorbByte s b).widx.toNat < wordCount s.ds := by
  have h40 := wordCount_le s.ds
  rw [absorbByte_widx, State.wordsInUse]
  split
  · rw [nextWidx_toNat (wordCount_pos s.ds) (by omega)]
    exact Nat.mod_lt _ (wordCount_pos s.ds)
  · exact h

/-- The lanes of `TAIL` from the next byte's on stay 0 (10_state.md R30). -/
theorem absorbByte_tail_lanes {s : State} (h : ∀ k, s.lane ≤ k → k < 8 → laneByte s.tail k = 0) (b : Byte) :
    ∀ k, (absorbByte s b).lane ≤ k → k < 8 → laneByte (absorbByte s b).tail k = 0 := by
  intro k hlane hk
  rw [absorbByte_lane] at hlane
  rw [absorbByte_tail]
  split
  case isTrue => simp
  case isFalse hne =>
    have hlt := lane_lt s
    have hpast : s.lane < k := by omega
    simp [laneByte_placeByte b hk hlt, h k hpast.le hk, Nat.ne_of_gt hpast]

/-! ### The states that reset leaves -/

/-- In `UNCONF` with the digest, the fault, the key and the position cleared, the invariant asks nothing more. -/
theorem inv_of_cleared {s : State} (hfsm : s.fsm = .unconf) (hcfg : s.cfgValid = false) (hvalid : s.digestValid = false)
    (hdigest : s.digest = 0) (hcause : s.faultCause = .none) (hwidx : s.widx = 0) (htail : s.tail = 0)
    (hkey : s.key = 0) : Inv s where
  unconf _ := hcfg
  configured := by simp [hfsm]
  digestValid := by simp [hfsm, hvalid]
  noDigest _ := hdigest
  digestLow := by simp [hdigest]
  cause := by simp [hfsm, hcause]
  fresh := by simp [hfsm]
  freshWords := by simp [hfsm]
  widx := by simpa [hwidx] using wordCount_pos s.ds
  tail := by simp [htail]
  key _ := hkey

/-- Settles O52, from the registers that `State.reset` clears. -/
theorem invHoldsAtReset : Obligations.InvHoldsAtReset := inv_of_cleared rfl rfl rfl rfl rfl rfl rfl rfl

theorem inv_hardwareReset (s : State) : Inv (hardwareReset s) := by apply inv_of_cleared <;> simp

/-! ### The states that the commands leave -/

/-- The invariant says nothing of the port (20_memory.md R53: a command in flight changes no register). -/
theorem inv_port {s : State} (h : Inv s) (f : Option InFlight) (ins : List PortIn) :
    Inv { s with inFlight := f, inputs := ins } :=
  ⟨h.unconf, h.configured, h.digestValid, h.noDigest, h.digestLow, h.cause, h.fresh, h.freshWords, h.widx, h.tail, h.key⟩

theorem inv_raiseFault {s : State} (h : Inv s) {c : Cause} (hc : c ≠ .none) : Inv (raiseFault c s) where
  unconf := by simp
  configured := by simp
  digestValid := by simp
  noDigest := by simp
  digestLow := by simp
  cause := by simp [hc]
  fresh := by simp
  freshWords := by simp
  widx := by simpa using h.widx
  tail := by simpa using h.tail
  key := by simpa using h.key

/-- `EnterFresh` makes the invariant of any configured state whose absent key is 0. -/
theorem inv_enterFresh {s : State} (hc : s.cfgValid = true) (hkey : s.keyEn = false → s.key = 0) :
    Inv (enterFresh s) where
  unconf := by simp
  configured := by simp [hc]
  digestValid := by simp
  noDigest := by simp
  digestLow := by simp
  cause := by simp
  fresh := by simp
  freshWords _ i hi := by
    have h40 := wordCount_le s.ds
    rw [enterFresh_ds] at hi ⊢
    rw [enterFresh_w, getWord_fillWords, if_pos ⟨hi, by omega⟩]
  widx := by simpa using wordCount_pos s.ds
  tail := by simp
  key := by simpa using hkey

theorem inv_enterAbsorbing {s : State} (h : Inv s) (hf : s.fsm ≠ .fault) (hn : s.fsm ≠ .finalized)
    (hc : s.cfgValid = true) : Inv (enterAbsorbing s) where
  unconf := by simp
  configured := by simp [hc]
  digestValid := by simpa [hn] using h.digestValid
  noDigest := by simpa using h.noDigest
  digestLow := by simpa using h.digestLow
  cause := by simpa [hf] using h.cause
  fresh := by simp
  freshWords := by simp
  widx := by simpa using h.widx
  tail := by simpa using h.tail
  key := by simpa using h.key

theorem inv_absorbByte {s : State} (h : Inv s) (ha : s.fsm = .absorbing) (b : Byte) : Inv (absorbByte s b) where
  unconf := by simp [ha]
  configured := by simpa using h.configured
  digestValid := by simpa using h.digestValid
  noDigest := by simpa using h.noDigest
  digestLow := by simpa using h.digestLow
  cause := by simpa using h.cause
  fresh := by simp [ha]
  freshWords := by simp [ha]
  widx := absorbByte_widx_lt h.widx b
  tail := absorbByte_tail_lanes h.tail b
  key := by simpa using h.key

theorem inv_absorbAll (bs : List Byte) {s : State} (h : Inv s) (ha : s.fsm = .absorbing) : Inv (absorbAll bs s) := by
  induction bs generalizing s with
  | nil => exact h
  | cons b bs ih => exact ih (inv_absorbByte h ha b) ((absorbByte_fsm s b).trans ha)

theorem inv_finalizeSteps {s : State} (h : Inv s) (hf : s.fsm ≠ .fault) (hc : s.cfgValid = true) :
    Inv (finalizeSteps s) where
  unconf := by simp
  configured := by simp [hc]
  digestValid := by simp
  noDigest := by simp
  digestLow k hlow hk := by
    rw [finalizeSteps_ds] at hlow
    rw [finalizeSteps_digest, digestByte_squeeze _ _ hk]
    exact if_neg (Nat.not_lt.mpr hlow)
  cause := by simpa [hf] using h.cause
  fresh := by simp
  freshWords := by simp
  widx := by simpa using h.widx
  tail := by simpa using h.tail
  key := by simpa using h.key

/-- Every accepted word keeps the invariant. -/
theorem execute_keeps_inv {w : CmdWord} {s t : State} (h : Inv s) (hx : execute w s = .next t) : Inv t := by
  cases execute_effect hx with
  | unchanged => exact h
  | refused c _ hcause => exact inv_raiseFault h hcause
  | init ds e k _ => exact inv_enterFresh (by simp) (by simp +contextual)
  | reset hc => exact inv_enterFresh hc h.key
  | absorb bs hf hn hc =>
    rw [← absorbAll_enterAbsorbing]
    exact inv_absorbAll bs (inv_enterAbsorbing h hf hn hc) (enterAbsorbing_fsm s)
  | finalize hf _ hc => exact inv_finalizeSteps h hf hc

/-- Settles O53: an edge resets the core, or changes the port alone, or runs one word. -/
theorem everyStepKeepsInv : Obligations.EveryStepKeepsInv := by
  intro s t h hstep
  rcases step_cases hstep with hstay | ⟨w, u, hrun, hx⟩
  · rcases clockEdge_stay hstay with ⟨_, rfl⟩ | ⟨_, f, rfl⟩
    · exact inv_hardwareReset _
    · exact inv_port h _ _
  · obtain rfl := clockEdge_run hrun
    exact execute_keeps_inv (inv_port h _ _) hx

end Sys2Proof.Machine
end

section
/-! PROOF. The transition table of 10_state.md R25, and the reset values of R38. -/

namespace Sys2Proof.Machine

/-- Settles O3: `State.reset` is written with these values. -/
theorem resetStateRegisters : Obligations.ResetStateRegisters :=
  ⟨rfl, rfl, rfl, rfl, rfl, rfl, rfl, rfl, rfl, rfl, rfl, rfl, rfl⟩

/-- Under the invariant only `UNCONF` and `FAULT` are without a configuration. -/
theorem Inv.fsm_eq_unconf {s : State} (h : Inv s) (hf : s.fsm ≠ .fault) (hc : s.cfgValid = false) :
    s.fsm = .unconf := by
  have hconf := h.configured
  cases hs : s.fsm <;> simp_all

/-- Under the invariant a configured state that is neither finalized nor faulted takes message bytes. -/
theorem Inv.acceptsMessage {s : State} (h : Inv s) (hf : s.fsm ≠ .fault) (hn : s.fsm ≠ .finalized)
    (hc : s.cfgValid = true) : AcceptsMessage s := by
  have hunconf := h.unconf
  refine ⟨hc, ?_⟩
  cases hs : s.fsm <;> simp_all

/-- The next `STATE` of every command is the table's. -/
theorem exec_fsm {i : Instr} {s t : State} (h : Inv s) (hi : exec i s = .next t) :
    t.fsm = transition s.fsm s.cfgValid i := by
  cases i with
  | init ds e k =>
    rw [execInit_next hi]
    simp [transition]
  | absorb bs =>
    rcases execAbsorb_cases hi with ⟨hf, rfl⟩ | ⟨hf, hc, rfl⟩ | ⟨hn, _, rfl⟩ | ⟨hf, hn, hc, rfl⟩
    · simp [hf, transition]
    · simp [h.fsm_eq_unconf hf hc, transition]
    · simp [hn, transition]
    · rcases (h.acceptsMessage hf hn hc).2 with hs | hs <;> simp [hs, transition]
  | finalize =>
    rcases execFinalize_cases hi with ⟨hf, rfl⟩ | ⟨hf, hc, rfl⟩ | ⟨hn, _, rfl⟩ | ⟨hf, hn, hc, rfl⟩
    · simp [hf, transition]
    · simp [h.fsm_eq_unconf hf hc, transition]
    · simp [hn, transition]
    · rcases (h.acceptsMessage hf hn hc).2 with hs | hs <;> simp [hs, transition]
  | reset =>
    rcases execReset_cases hi with ⟨hc, hf, rfl⟩ | ⟨hc, hf, rfl⟩ | ⟨hc, rfl⟩
    · simp [hf, hc, transition]
    · simp [h.fsm_eq_unconf hf hc, transition]
    · have hunconf := h.unconf
      cases hs : s.fsm <;> simp_all [transition]

/-- In `UNCONF` a command other than INIT is refused for want of a configuration (60_exceptions.md R203). -/
theorem exec_unconf_faultCause {i : Instr} {s t : State} (hs : s.fsm = .unconf) (hc : s.cfgValid = false)
    (hi : exec i s = .next t) (ht : t.fsm = .fault) : t.faultCause = .notConfigured := by
  have hf : s.fsm ≠ .fault := by simp [hs]
  have hrefused : exec i s = .next (raiseFault .notConfigured s) := by
    cases i with
    | init ds e k =>
      rw [execInit_next hi, enterFresh_fsm] at ht
      cases ht
    | absorb bs => exact execAbsorb_of_notConfigured bs hf hc
    | finalize => exact execFinalize_of_notConfigured hf hc
    | reset => exact execReset_of_notConfigured hf hc
  obtain rfl := Host.Outcome.next.inj (hi.symm.trans hrefused)
  exact raiseFault_faultCause _ _

/-- An illegal word ends in `FAULT`, where it changes nothing if the core is there already (30_encoding.md R84). -/
theorem execute_illegal {w : CmdWord} {c : Cause} (hw : decode w = .illegal c) (s : State) :
    ∃ t, execute w s = .next t ∧ t.fsm = .fault ∧ (s.fsm = .fault → t = s) := by
  refine ⟨refuseIllegal c s, by simp only [execute, hw], ?_⟩
  rcases refuseIllegal_cases c s with ⟨hf, hr⟩ | ⟨hf, hr⟩
  · exact ⟨(congrArg State.fsm hr).trans hf, fun _ => hr⟩
  · exact ⟨(congrArg State.fsm hr).trans (raiseFault_fsm c s), fun h => absurd h hf⟩

/-- An edge with `rst` = 1 is a hardware reset, whatever else is presented (60_exceptions.md R208). -/
theorem step_of_rst {s : State} (h : s.sampled.rst = true) : step s = .next (hardwareReset (dropInput s)) := by
  simp [step, clockEdge, h]

/-- Settles O21, cell by cell. -/
theorem transitionTable : Obligations.TransitionTable := by
  intro s h
  refine ⟨fun i => ?_, fun hs i t hi => exec_unconf_faultCause hs (h.unconf hs) hi, fun hs bs t hi => ?_,
    fun hs => ?_, fun hs => ⟨fun bs => ?_, ?_, fun hc => ?_⟩, fun w c hw => execute_illegal hw s, fun hr => ?_⟩
  · obtain ⟨t, hi⟩ := exec_answers_next i s
    exact ⟨t, hi, exec_fsm h hi⟩
  · have hc : s.cfgValid = true := h.configured (by simp [hs])
    obtain rfl := Host.Outcome.next.inj (hi.symm.trans (execAbsorb_of_finalized bs hs hc))
    exact raiseFault_faultCause _ _
  · exact execFinalize_of_finalized hs (h.configured (by simp [hs]))
  · exact execAbsorb_of_fault bs hs
  · exact execFinalize_of_fault hs
  · exact execReset_of_fault hs hc
  · exact ⟨_, step_of_rst hr, hardwareReset_fsm _⟩

end Sys2Proof.Machine
end

section
/-! PROOF. What an accepted word leaves unchanged: the configuration (10_state.md R26, R27) and the unused words (R21). -/

namespace Sys2Proof.Machine

/-! ### The configuration -/

theorem execute_sameConfig {w : CmdWord} {s t : State} (h : execute w s = .next t) :
    SameConfig s t ∨ ∃ ds e k, decode w = .legal (.init ds e k) := by
  cases execute_effect h with
  | unchanged => exact .inl ⟨rfl, rfl, rfl, rfl⟩
  | refused c => exact .inl (by simp [SameConfig])
  | init ds e k hw => exact .inr ⟨ds, e, k, hw⟩
  | reset => exact .inl (by simp [SameConfig])
  | absorb bs =>
    obtain ⟨_, hconfig, _⟩ := absorbAll_frame bs s
    exact .inl (by simpa [SameConfig] using hconfig)
  | finalize => exact .inl (by simp [SameConfig])

theorem completing_of_run {s u : State} {w : CmdWord} (h : clockEdge s = .run w u) : completing s = some w := by
  simp [completing, h]

/-- Settles O54: without `rst` only an edge that runs a word can change the configuration, and of the words only INIT
does. -/
theorem configurationChangesOnlyByInit : Obligations.ConfigurationChangesOnlyByInit := by
  intro s t hstep
  rcases step_cases hstep with hstay | ⟨w, u, hrun, hx⟩
  · rcases clockEdge_stay hstay with ⟨hrst, _⟩ | ⟨_, f, rfl⟩
    · exact .inr (.inl hrst)
    · exact .inl ⟨rfl, rfl, rfl, rfl⟩
  · obtain rfl := clockEdge_run hrun
    rcases execute_sameConfig hx with hsame | ⟨ds, e, k, hw⟩
    · exact .inl hsame
    · exact .inr (.inr ⟨w, ds, e, k, completing_of_run hrun, hw⟩)

/-! ### The unused words -/

theorem SameWordsFrom.trans {n : Nat} {s t u : State} (hst : SameWordsFrom n s t) (htu : SameWordsFrom n t u) :
    SameWordsFrom n s u := fun i hn h40 => (htu i hn h40).trans (hst i hn h40)

theorem sameWordsFrom_enterFresh (s : State) : SameWordsFrom (wordCount s.ds) s (enterFresh s) := by
  intro i hn _
  rw [enterFresh_w, getWord_fillWords, if_neg]
  exact fun h => Nat.not_lt.mpr hn h.1

theorem getWord_xorWord_of_ge {n : Nat} (w : Words) {i j : Nat} (v : Word) (hi : i < n) (hj : n ≤ j) :
    getWord (xorWord w i v) j = getWord w j := by
  rw [getWord_xorWord, if_neg]
  omega

/-- With `WIDX` below N, as every byte leaves it, absorbing writes below N only. -/
theorem sameWordsFrom_absorbAll (bs : List Byte) {s : State} (h : s.widx.toNat < wordCount s.ds) :
    SameWordsFrom (wordCount s.ds) s (absorbAll bs s) := by
  induction bs generalizing s with
  | nil => exact fun _ _ _ => rfl
  | cons b bs ih =>
    have hbyte : SameWordsFrom (wordCount s.ds) s (absorbByte s b) := fun i hn _ => by
      rw [absorbByte_w, getWord_xorWord_of_ge _ _ h hn]
    have hrest := ih (s := absorbByte s b) (by simpa only [absorbByte_ds] using absorbByte_widx_lt h b)
    rw [absorbByte_ds] at hrest
    exact hbyte.trans hrest

theorem getWord_finalWords_of_ge (s : State) {i : Nat} (h : wordCount s.ds ≤ i) :
    getWord (finalWords s) i = getWord s.w i := by
  rw [finalWords, getWord_arxRounds_ge _ _ h, getWord_xorWord_of_ge _ _ (wordCount_pos s.ds) h,
    getWord_arxRounds_ge _ _ h]

/-- Settles O56: INIT and RESET fill below N, ABSORB writes at `WIDX`, FINALIZE below N and at 0. -/
theorem unusedWordsNeverWritten : Obligations.UnusedWordsNeverWritten := by
  intro w s t hwidx hx
  cases execute_effect hx with
  | unchanged => exact fun _ _ _ => rfl
  | refused c => exact fun _ _ _ => by rw [raiseFault_w]
  | init ds e k =>
    have hconf : SameWordsFrom (wordCount (configure ds e k s).ds) s (configure ds e k s) :=
      fun _ _ _ => by rw [configure_w]
    rw [enterFresh_ds]
    exact hconf.trans (sameWordsFrom_enterFresh _)
  | reset =>
    rw [enterFresh_ds]
    exact sameWordsFrom_enterFresh s
  | absorb bs =>
    obtain ⟨_, ⟨_, hds, _⟩, _⟩ := absorbAll_frame bs s
    rw [enterAbsorbing_ds, hds]
    exact sameWordsFrom_absorbAll bs hwidx
  | finalize =>
    intro i hn _
    rw [finalizeSteps_ds] at hn
    rw [finalizeSteps_w, getWord_finalWords_of_ge s hn]

end Sys2Proof.Machine
end

section
/-! PROOF. What the bytes and the rounds do not look at: the code of `STATE` (10_state.md R25) and the key but for the seed
(R27). -/

namespace Sys2Proof.Machine

/-- The state with another `STATE` and another key: the registers that no message byte and no round reads or writes. -/
def withControl (f : FsmState) (e : Bool) (k : Word) (s : State) : State := { s with fsm := f, keyEn := e, key := k }

section
variable (f : FsmState) (e : Bool) (k : Word)

theorem absorbByte_withControl (s : State) (b : Byte) :
    absorbByte (withControl f e k s) b = withControl f e k (absorbByte s b) := rfl

theorem absorbAll_withControl (bs : List Byte) (s : State) :
    absorbAll bs (withControl f e k s) = withControl f e k (absorbAll bs s) := by
  induction bs generalizing s with
  | nil => rw [absorbAll_nil, absorbAll_nil]
  | cons b bs ih => rw [absorbAll_cons, absorbAll_cons, ← ih, absorbByte_withControl]

theorem roundStep_withControl (p : BitVec 3) (a : Word) (s : State) (r : Nat) :
    roundStep p a (withControl f e k s) r = withControl f e k (roundStep p a s r) := rfl

theorem roundSteps_withControl (p : BitVec 3) (a : Word) (rs : List Nat) (s : State) :
    rs.foldl (roundStep p a) (withControl f e k s) = withControl f e k (rs.foldl (roundStep p a) s) := by
  induction rs generalizing s with
  | nil => rw [List.foldl_nil, List.foldl_nil]
  | cons r rs ih => rw [List.foldl_cons, List.foldl_cons, ← ih, roundStep_withControl]

theorem mainRounds_withControl (s : State) : mainRounds (withControl f e k s) = withControl f e k (mainRounds s) :=
  roundSteps_withControl f e k phaseMain s.nacc (List.range s.mainRoundCount) s

theorem extraRounds_withControl (s : State) : extraRounds (withControl f e k s) = withControl f e k (extraRounds s) :=
  roundSteps_withControl f e k phaseExtra s.tacc ((List.range extraRoundCount).map (finRoundBase s.ds + ·)) s

theorem lengthMix_withControl (s : State) : lengthMix (withControl f e k s) = withControl f e k (lengthMix s) := rfl

theorem buildTail_withControl (s : State) : buildTail (withControl f e k s) = withControl f e k (buildTail s) := rfl

theorem presentDigest_withControl (s : State) :
    presentDigest (withControl f e k s) = withControl .finalized e k (presentDigest s) := rfl

theorem goIdle_withControl (s : State) : goIdle (withControl f e k s) = withControl f e k (goIdle s) := rfl

end

/-- The one place where FINALIZE reads the key: the seed of the tail's noise (45_command_finalize.md R171). -/
theorem tailNoise_withControl (f : FsmState) {e : Bool} {k : Word} {s : State} (h : seedOf e k = s.seed) :
    tailNoise (withControl f e k s) = withControl f e k (tailNoise s) := by
  have hseed : (withControl f e k s).seed = s.seed := h
  simp only [tailNoise, hseed]
  rfl

theorem mainRounds_seed (s : State) : (mainRounds s).seed = s.seed := by
  obtain ⟨_, _, _, heq⟩ := mainRounds_eq s
  rw [heq]
  rfl

/-- The steps of FINALIZE read neither `STATE` nor the key, the seed apart. -/
theorem finalizeSteps_withControl (f : FsmState) {e : Bool} {k : Word} {s : State} (h : seedOf e k = s.seed) :
    finalizeSteps (withControl f e k s) = withControl .finalized e k (finalizeSteps s) := by
  have hseed : seedOf e k = (buildTail (lengthMix (mainRounds s))).seed := by
    rw [buildTail_seed, lengthMix_seed, mainRounds_seed, h]
  simp only [finalizeSteps, mainRounds_withControl, lengthMix_withControl, buildTail_withControl,
    tailNoise_withControl f hseed, extraRounds_withControl, presentDigest_withControl, goIdle_withControl]

/-! ### The commands on such a state -/

/-- ABSORB past its check on `STATE`: the code it started from is not in the outcome. -/
theorem execAbsorb_withControl (bs : List Byte) {f : FsmState} (hf : f ≠ .fault) (hn : f ≠ .finalized) (e : Bool)
    (k : Word) (s : State) :
    execAbsorb bs (withControl f e k s) =
      if s.cfgValid = false then .next (withControl .fault e k (raiseFault .notConfigured s))
      else .next (withControl .absorbing e k (absorbAll bs s)) := by
  split
  case isTrue hc => exact execAbsorb_of_notConfigured bs hf hc
  case isFalse hc =>
    rw [execAbsorb_of_accepting (s := withControl f e k s) bs hf hn (eq_true_of_ne_false hc), absorbAll_withControl]
    rfl

/-- FINALIZE likewise, under any key with the same seed. -/
theorem execFinalize_withControl {f : FsmState} (hf : f ≠ .fault) (hn : f ≠ .finalized) {e : Bool} {k : Word}
    {s : State} (hseed : seedOf e k = s.seed) :
    execFinalize (withControl f e k s) =
      if s.cfgValid = false then .next (withControl .fault e k (raiseFault .notConfigured s))
      else .next (withControl .finalized e k (finalizeSteps s)) := by
  split
  case isTrue hc => exact execFinalize_of_notConfigured hf hc
  case isFalse hc =>
    rw [execFinalize_of_accepting (s := withControl f e k s) hf hn (eq_true_of_ne_false hc),
      finalizeSteps_withControl f hseed]

/-- RESET likewise. -/
theorem execReset_withControl {f : FsmState} (hf : f ≠ .fault) {e : Bool} {k : Word} {s : State}
    (hseed : seedOf e k = s.seed) :
    execReset (withControl f e k s) =
      if s.cfgValid = false then .next (withControl .fault e k (raiseFault .notConfigured s))
      else .next (withControl .fresh e k (enterFresh s)) := by
  have hfresh : enterFresh (withControl f e k s) = withControl .fresh e k (enterFresh s) := by
    have hsame : (withControl f e k s).seed = s.seed := hseed
    simp only [enterFresh, hsame]
    rfl
  split
  case isTrue hc => exact execReset_of_notConfigured hf hc
  case isFalse hc => rw [execReset_of_configured (s := withControl f e k s) (eq_true_of_ne_false hc), hfresh]

/-- Any command, from any two codes of `STATE` that pass both checks on it. -/
theorem exec_withControl_code (i : Instr) (s : State) {f g : FsmState} (hf : f ≠ .fault) (hfn : f ≠ .finalized)
    (hg : g ≠ .fault) (hgn : g ≠ .finalized) :
    exec i (withControl f s.keyEn s.key s) = exec i (withControl g s.keyEn s.key s) := by
  cases i with
  | init ds e k => rfl
  | absorb bs => exact (execAbsorb_withControl bs hf hfn _ _ s).trans (execAbsorb_withControl bs hg hgn _ _ s).symm
  | finalize => exact (execFinalize_withControl hf hfn rfl).trans (execFinalize_withControl hg hgn rfl).symm
  | reset => exact (execReset_withControl hf rfl).trans (execReset_withControl hg rfl).symm

/-- Settles O22: both codes pass the checks on `STATE`. -/
theorem freshAndAbsorbingBehaveAlike : Obligations.FreshAndAbsorbingBehaveAlike := fun i s =>
  exec_withControl_code i s (by decide) (by decide) (by decide) (by decide)

theorem withControl_of_fsm {f : FsmState} {s : State} (hf : s.fsm = f) (e : Bool) (k : Word) :
    withControl f e k s = { s with keyEn := e, key := k } := by
  rw [← hf, withControl]

/-- FINALIZE of a message under another key with the same seed. -/
theorem execFinalize_sameSeed {s t : State} {e : Bool} {k : Word} (ha : AcceptsMessage s) (hseed : seedOf e k = s.seed)
    (h : execFinalize s = .next t) :
    execFinalize { s with keyEn := e, key := k } = .next { t with keyEn := e, key := k } := by
  obtain ⟨hc, hs⟩ := ha
  have hf : s.fsm ≠ .fault := by rcases hs with hs | hs <;> simp [hs]
  have hn : s.fsm ≠ .finalized := by rcases hs with hs | hs <;> simp [hs]
  obtain rfl := Host.Outcome.next.inj (h.symm.trans (execFinalize_of_accepting hf hn hc))
  rw [← withControl_of_fsm rfl, ← withControl_of_fsm (finalizeSteps_fsm s), execFinalize_withControl hf hn hseed,
    if_neg (by simp [hc])]

/-- ABSORB under another key, in every state. -/
theorem execAbsorb_anyKey {s t : State} {bs : List Byte} (e : Bool) (k : Word) (h : execAbsorb bs s = .next t) :
    execAbsorb bs { s with keyEn := e, key := k } = .next { t with keyEn := e, key := k } := by
  rcases execAbsorb_cases h with ⟨hf, rfl⟩ | ⟨hf, hc, rfl⟩ | ⟨hn, hc, rfl⟩ | ⟨hf, hn, hc, rfl⟩
  · exact execAbsorb_of_fault bs hf
  · exact execAbsorb_of_notConfigured bs hf hc
  · exact execAbsorb_of_finalized bs hn hc
  · rw [← withControl_of_fsm rfl, ← withControl_of_fsm (enterAbsorbing_fsm _),
      execAbsorb_withControl bs hf hn, if_neg (by simp [hc])]
    rfl

/-- Settles O57: FINALIZE reads the key through the seed alone, ABSORB not at all. -/
theorem keyEntersOnlyAsSeed : Obligations.KeyEntersOnlyAsSeed :=
  ⟨fun _ _ _ _ ha hseed h => execFinalize_sameSeed ha hseed h, fun _ _ _ e k h => execAbsorb_anyKey e k h⟩

end Sys2Proof.Machine
end

section
/-! PROOF. One edge of the command port, and what it answers (20_memory.md R52 to R54, R69). -/

namespace Sys2Proof.Machine

/-- Settles O4: each port is written as that function; the digest of an invalid one is R32's, in the invariant. -/
theorem portsAreFunctionsOfState : Obligations.PortsAreFunctionsOfState := fun _ =>
  ⟨rfl, rfl, fun hinv => hinv.noDigest, beq_iff_eq, rfl, rfl, rfl, rfl⟩

theorem sampled_of_inputs {s : State} {p : PortIn} {rest : List PortIn} (h : s.inputs = p :: rest) : s.sampled = p := by
  rw [State.sampled, h, List.headD_cons]

/-! ### The cases of an edge without `rst` -/

section
variable {s : State}

theorem step_of_idle (hrst : s.sampled.rst = false) (hready : s.inFlight = none) (hvalid : s.sampled.cmdValid = false) :
    step s = .next (dropInput s) := by
  simp [step, clockEdge, hrst, hready, hvalid]

theorem step_of_accept_latency_zero (hrst : s.sampled.rst = false) (hready : s.inFlight = none)
    (hvalid : s.sampled.cmdValid = true) (hlat : s.latency s.sampled.cmd = 0) :
    step s = execute s.sampled.cmd (dropInput s) := by
  simp [step, clockEdge, hrst, hready, hvalid, hlat]

theorem step_of_accept_latency_succ {n : Nat} (hrst : s.sampled.rst = false) (hready : s.inFlight = none)
    (hvalid : s.sampled.cmdValid = true) (hlat : s.latency s.sampled.cmd = n + 1) :
    step s = .next { dropInput s with inFlight := some ⟨s.sampled.cmd, n⟩ } := by
  simp [step, clockEdge, hrst, hready, hvalid, hlat]

theorem step_of_inFlight_succ {w : CmdWord} {n : Nat} (hrst : s.sampled.rst = false)
    (hbusy : s.inFlight = some ⟨w, n + 1⟩) : step s = .next { dropInput s with inFlight := some ⟨w, n⟩ } := by
  simp [step, clockEdge, hrst, hbusy]

theorem step_of_inFlight_zero {w : CmdWord} (hrst : s.sampled.rst = false) (hbusy : s.inFlight = some ⟨w, 0⟩) :
    step s = execute w { dropInput s with inFlight := none } := by
  simp [step, clockEdge, hrst, hbusy]

end

/-- Settles O5, one equation per case of the edge. -/
theorem commandAcceptedOnlyWhenReady : Obligations.CommandAcceptedOnlyWhenReady := fun _ hrst =>
  ⟨step_of_idle hrst, step_of_accept_latency_zero hrst, fun _ => step_of_accept_latency_succ hrst,
    fun _ _ => step_of_inFlight_succ hrst, fun _ => step_of_inFlight_zero hrst⟩

/-! ### The word that completes, decoded -/

theorem execute_of_legal {w : CmdWord} {i : Instr} (hw : decode w = .legal i) (s : State) : execute w s = exec i s := by
  simp only [execute, hw]

theorem decodeInit_wellFormed {w : CmdWord} {i : Instr} (h : decodeInit w = .legal i) : i.wellFormed = true := by
  unfold decodeInit at h
  split at h
  · cases h
  · split at h
    · cases h
    · cases h
      cases hkey : keyEnBit w <;> simp [Instr.wellFormed, initWellFormed]

theorem decodeAbsorb_wellFormed {w : CmdWord} {i : Instr} (h : decodeAbsorb w = .legal i) : i.wellFormed = true := by
  unfold decodeAbsorb at h
  split at h
  case isTrue hcount =>
    cases h
    simpa [Instr.wellFormed, absorbWellFormed] using hcount
  case isFalse => cases h

theorem decodeBare_eq {w : CmdWord} {i j : Instr} (h : decodeBare j w = .legal i) : i = j := by
  unfold decodeBare at h
  split at h
  · exact (Decoded.legal.inj h).symm
  · cases h

/-- Decoding answers well-formed commands only (30_encoding.md R79, R80, R83). -/
theorem decode_wellFormed {w : CmdWord} {i : Instr} (h : decode w = .legal i) : i.wellFormed = true := by
  unfold decode at h
  split_ifs at h
  · exact decodeInit_wellFormed h
  · exact decodeAbsorb_wellFormed h
  · rw [decodeBare_eq h, Instr.wellFormed]
  · rw [decodeBare_eq h, Instr.wellFormed]

/-- A word accepted with latency 0 is executed at the accepting edge. -/
theorem step_of_presented {s : State} {w : CmdWord} (hready : s.inFlight = none) (hin : s.sampled = commandInput w)
    (hlat : s.latency w = 0) : step s = execute w (dropInput s) := by
  obtain rfl : s.sampled.cmd = w := congrArg PortIn.cmd hin
  exact step_of_accept_latency_zero (congrArg PortIn.rst hin) hready (congrArg PortIn.cmdValid hin) hlat

/-- Settles O8, from the two edges at which a word completes. -/
theorem stepRunsDecodedInstruction : Obligations.StepRunsDecodedInstruction := fun _ _ _ hw =>
  ⟨decode_wellFormed hw,
    fun hready hin hlat => (step_of_presented hready hin hlat).trans (execute_of_legal hw _),
    fun hbusy hrst => (step_of_inFlight_zero hrst hbusy).trans (execute_of_legal hw _)⟩

theorem decode_of_decodeTableWord {n w : Nat} {i : Instr} (h : decodeTableWord n w = some i) :
    decode (BitVec.ofNat 72 w) = .legal i := by
  unfold decodeTableWord at h
  split at h
  · split at h
    · rename_i hw
      rw [hw, Option.some.inj h]
    · cases h
  · cases h

/-- The port that `presentWord` makes ready runs the word at once. -/
theorem step_presentWord (s : State) (w : CmdWord) :
    step (presentWord s w) = execute w { s with inFlight := none, lat := [] } :=
  step_of_presented (presentWord_inFlight s w) (sampled_of_inputs (presentWord_inputs s w))
    (by rw [State.latency, presentWord_lat, latencyOf])

/-- Settles O9: the placed word is the table's, being below 2^72. -/
theorem fetchedWordRunsNext : Obligations.FetchedWordRunsNext := by
  intro s w i hlt hdec
  rw [State.withFetchWord, Nat.mod_eq_of_lt hlt, step_presentWord, execute_of_legal (decode_of_decodeTableWord hdec)]

end Sys2Proof.Machine
end

section
/-! PROOF. A command in flight, edge after edge, until it completes (20_memory.md R53). -/

namespace Sys2Proof.Machine

/-! ### Runs of edges -/

theorem runEdges_succ_of_next {s t : State} (h : step s = .next t) (k : Nat) : runEdges (k + 1) s = runEdges k t := by
  rw [runEdges, h]

theorem runEdges_one (s : State) : runEdges 1 s = step s := by
  cases h : step s <;> simp only [runEdges, h]

/-! ### What executing a word leaves of the port -/

theorem finalizeSteps_samePort (s : State) : SamePort s (finalizeSteps s) := by
  obtain ⟨_, _, heq⟩ := finalizeSteps_eq s
  rw [heq]
  exact ⟨rfl, rfl, rfl, rfl⟩

/-- An executed word touches nothing of the port: it consumes no input and accepts no other word. -/
theorem execute_samePort {w : CmdWord} {s t : State} (h : execute w s = .next t) : SamePort s t := by
  cases execute_effect h with
  | unchanged => exact ⟨rfl, rfl, rfl, rfl⟩
  | refused c => simp [SamePort]
  | init ds e k => simp [SamePort]
  | reset => simp [SamePort]
  | absorb bs =>
    obtain ⟨_, _, _, _, hport⟩ := absorbAll_frame bs s
    simpa [SamePort] using hport
  | finalize => exact finalizeSteps_samePort s

theorem execute_answers_next (w : CmdWord) (s : State) : ∃ t, execute w s = .next t := by
  cases hw : decode w with
  | legal i => rw [execute_of_legal hw]; exact exec_answers_next i s
  | illegal c => exact ⟨refuseIllegal c s, by simp only [execute, hw]⟩

/-! ### The command in flight -/

/-- The state `s` with the word `w` in flight, `n` edges before its completing edge, and the inputs `ins` to come. -/
def waiting (s : State) (w : CmdWord) (n : Nat) (ins : List PortIn) : State :=
  { s with inFlight := some ⟨w, n⟩, inputs := ins }

/-- While waiting the core is busy and shows what it showed before (log 4). -/
theorem waiting_ports (s : State) (w : CmdWord) (n : Nat) (ins : List PortIn) :
    (waiting s w n ins).busy = true ∧ (waiting s w n ins).fsm = s.fsm ∧ SameOutputs s (waiting s w n ins) :=
  ⟨rfl, rfl, rfl, rfl, rfl⟩

section
variable (s : State) (w : CmdWord) {p : PortIn}

theorem step_waiting_succ (hp : p.rst = false) (n : Nat) (ins : List PortIn) :
    step (waiting s w (n + 1) (p :: ins)) = .next (waiting s w n ins) :=
  step_of_inFlight_succ (s := waiting s w (n + 1) (p :: ins)) hp rfl

theorem step_waiting_zero (hp : p.rst = false) (ins : List PortIn) :
    step (waiting s w 0 (p :: ins)) = execute w { s with inFlight := none, inputs := ins } :=
  step_of_inFlight_zero (s := waiting s w 0 (p :: ins)) hp rfl

/-- Each edge without `rst` brings the completing edge one nearer, whatever is presented. -/
theorem runEdges_waiting {n j : Nat} {ins : List PortIn} (hins : ∀ p ∈ ins, p.rst = false) (hj : j ≤ n)
    (hlen : j ≤ ins.length) (rest : List PortIn) (k : Nat) :
    runEdges (j + k) (waiting s w n (ins ++ rest)) = runEdges k (waiting s w (n - j) (ins.drop j ++ rest)) := by
  induction j generalizing n ins with
  | zero => rw [Nat.zero_add, Nat.sub_zero, List.drop_zero]
  | succ j ih =>
    obtain ⟨p, ins, rfl⟩ := List.exists_cons_of_length_pos (Nat.zero_lt_of_lt hlen)
    obtain ⟨n, rfl⟩ := Nat.exists_eq_add_one.mpr (Nat.zero_lt_of_lt hj)
    obtain ⟨hp, hrest⟩ := List.forall_mem_cons.mp hins
    rw [Nat.succ_add, List.cons_append, runEdges_succ_of_next (step_waiting_succ s w hp _ _), List.drop_succ_cons,
      Nat.succ_sub_succ]
    exact ih hrest (Nat.le_of_succ_le_succ hj) (Nat.le_of_succ_le_succ hlen)

/-- The last edge of the wait is the completing one. -/
theorem runEdges_waiting_complete {n : Nat} {ins : List PortIn} (hins : ∀ p ∈ ins, p.rst = false)
    (hlen : ins.length = n + 1) (rest : List PortIn) :
    runEdges (n + 1) (waiting s w n (ins ++ rest)) = execute w { s with inFlight := none, inputs := rest } := by
  have hlast : (ins.drop n).length = 1 := by rw [List.length_drop, hlen, Nat.add_sub_cancel_left]
  obtain ⟨p, hp⟩ := List.length_eq_one_iff.mp hlast
  have hrst : p.rst = false := hins p (List.mem_of_mem_drop (hp ▸ List.mem_singleton_self p))
  rw [runEdges_waiting s w hins le_rfl (by omega), hp, Nat.sub_self, runEdges_one]
  exact step_waiting_zero s w hrst rest

end

/-! ### The accepting edge -/

section
variable {s : State} {w : CmdWord} {later : List PortIn}

theorem step_accept_waits {n : Nat} (hready : s.inFlight = none) (hin : s.inputs = commandInput w :: later)
    (hlat : s.latency w = n + 1) : step s = .next (waiting s w n later) := by
  have hsampled := sampled_of_inputs hin
  have hcmd : s.sampled.cmd = w := congrArg PortIn.cmd hsampled
  rw [step_of_accept_latency_succ (congrArg PortIn.rst hsampled) hready (congrArg PortIn.cmdValid hsampled)
    (by rwa [hcmd]), hcmd, dropInput, hin, List.tail_cons, waiting]

/-- After each of the edges 1 to `LAT` the word is in flight and the registers are those of `s`. -/
theorem runEdges_eq_waiting {j : Nat} {ins rest : List PortIn} (hready : s.inFlight = none)
    (hin : s.inputs = commandInput w :: (ins ++ rest)) (hlen : ins.length = s.latency w)
    (hins : ∀ p ∈ ins, p.rst = false) (hpos : 1 ≤ j) (hj : j ≤ s.latency w) :
    ∃ m later, runEdges j s = .next (waiting s w m later) := by
  obtain ⟨j, rfl⟩ := Nat.exists_eq_add_one.mpr hpos
  obtain ⟨n, hlat⟩ := Nat.exists_eq_add_one.mpr (Nat.zero_lt_of_lt hj)
  rw [runEdges_succ_of_next (step_accept_waits hready hin hlat)]
  exact ⟨_, _, runEdges_waiting s w hins (by omega) (by omega) rest 0⟩

/-- Edge `LAT + 1` is the completing edge. -/
theorem runEdges_complete {ins rest : List PortIn} (hready : s.inFlight = none)
    (hin : s.inputs = commandInput w :: (ins ++ rest)) (hlen : ins.length = s.latency w)
    (hins : ∀ p ∈ ins, p.rst = false) :
    runEdges (s.latency w + 1) s = execute w { s with inputs := rest } := by
  cases hlat : s.latency w with
  | zero =>
    obtain rfl := List.eq_nil_of_length_eq_zero (hlen.trans hlat)
    rw [runEdges_one, step_of_presented hready (sampled_of_inputs hin) hlat, dropInput, hin, List.tail_cons,
      List.nil_append]
  | succ n =>
    rw [runEdges_succ_of_next (step_accept_waits hready hin hlat),
      runEdges_waiting_complete s w hins (hlen.trans hlat), ← hready]

end

/-- Settles O6: the accepting edge, the wait and the completing edge. -/
theorem latencyThenWholeEffect : Obligations.LatencyThenWholeEffect := by
  intro s w ins rest hready hin hlen hins
  refine ⟨fun j hpos hj => ?_, ?_⟩
  · obtain ⟨m, later, hrun⟩ := runEdges_eq_waiting hready hin hlen hins hpos hj
    exact ⟨_, hrun, waiting_ports s w m later⟩
  · obtain ⟨t, hx⟩ := execute_answers_next w { s with inputs := rest }
    obtain ⟨hinFlight, _⟩ := execute_samePort hx
    exact ⟨t, (runEdges_complete hready hin hlen hins).trans hx, hx, by rw [State.busy, hinFlight, hready]; rfl⟩

end Sys2Proof.Machine
end

section
/-! PROOF. The digest port byte by byte and word by word (20_memory.md R59). -/

namespace Sys2Proof.Machine

/-- Lane `k` of the port's word `i` is digest byte `8i + k`. -/
theorem laneByte_digestWord (d : BitVec 512) {i k : Nat} (hi : i < 8) (hk : k < 8) :
    laneByte (d.extractLsb' (448 - 64 * i) 64) k = digestByte d (8 * i + k) := by
  ext b hb
  have hin : 56 - 8 * k + b < 64 := by omega
  have hpos : 448 - 64 * i + (56 - 8 * k + b) = 504 - 8 * (8 * i + k) + b := by omega
  simp only [laneByte, digestByte, BitVec.getElem_extractLsb', BitVec.getLsbD_extractLsb', hin, hpos, decide_true,
    Bool.true_and]

theorem digestByte_squeeze_of_lt (ds : DigestSize) (w : Words) {k : Nat} (hk : k < outLen ds) :
    digestByte (squeeze ds w) k = squeezeByte ds w k := by
  rw [digestByte_squeeze ds w (hk.trans_le (outLen_le_port ds)), if_pos hk]

/-- A digest has at most as many words as are in use, so that the index does not wrap. -/
theorem squeezeByte_word (ds : DigestSize) (w : Words) {i k : Nat} (hi : i < outLen ds / 8) (hk : k < 8) :
    squeezeByte ds w (8 * i + k) = laneByte (getWord w i) k := by
  have hin : i < wordCount ds := by have := outLen_le ds; omega
  rw [squeezeByte, Nat.mul_add_div (by decide), Nat.div_eq_of_lt hk, Nat.add_zero, Nat.mod_eq_of_lt hin,
    Nat.mul_add_mod, Nat.mod_eq_of_lt hk]

/-- The whole words of the digest, in index order. -/
theorem digestWord_squeeze (ds : DigestSize) (w : Words) {i : Nat} (hi : i < outLen ds / 8) :
    (squeeze ds w).extractLsb' (448 - 64 * i) 64 = getWord w i := by
  have hport := outLen_le_port ds
  refine word_ext_lanes fun k hk => ?_
  rw [laneByte_digestWord _ (by omega) hk, digestByte_squeeze_of_lt ds w (by omega), squeezeByte_word ds w hi hk]

/-- Settles O44: the bytes of the squeeze, gathered into words, and the zeros past them. -/
theorem squeezeLayout : Obligations.SqueezeLayout := fun ds w =>
  ⟨fun _ => digestByte_squeeze_of_lt ds w, fun _ => digestWord_squeeze ds w, fun _ hlow hk => by
    rw [digestByte_squeeze ds w hk, if_neg (Nat.not_lt.mpr hlow)]⟩

end Sys2Proof.Machine
end

section
/-! PROOF. The legal words: a word decodes to a well-formed command exactly if it is the command's canonical word in the
bits that the command uses (30_encoding.md R83, R85, R90). -/

namespace Sys2Proof.Machine

open Sys2Proof.Laws.EncodesOpcode (opField_assembleFields)

/-! ### The three fields of a word -/

/-- A bit of an assembled word, below 64 the data's, then the four bits of `arg`, then the four of `op`. -/
theorem getLsbD_assembleFields (op arg : BitVec 4) (data : Word) (k : Nat) :
    (assembleFields op arg data).getLsbD k =
      if k < 64 then data.getLsbD k else if k - 64 < 4 then arg.getLsbD (k - 64) else op.getLsbD (k - 64 - 4) := by
  simp only [assembleFields, BitVec.getLsbD_append]

theorem argField_assembleFields (op arg : BitVec 4) (data : Word) : argField (assembleFields op arg data) = arg := by
  ext k hk
  simp [argField, getLsbD_assembleFields, hk]

theorem dataField_assembleFields (op arg : BitVec 4) (data : Word) : dataField (assembleFields op arg data) = data := by
  ext k hk
  simp [dataField, getLsbD_assembleFields, hk]

/-- A word is its three fields. -/
theorem assembleFields_fields (w : CmdWord) : assembleFields (opField w) (argField w) (dataField w) = w := by
  ext k hk
  rw [← BitVec.getLsbD_eq_getElem hk, getLsbD_assembleFields, ← BitVec.getLsbD_eq_getElem hk]
  split_ifs with hdata harg
  · simp [dataField, hdata]
  · simp [argField, harg, show 64 + (k - 64) = k by omega]
  · simp [opField, show k - 64 - 4 < 4 by omega, show 68 + (k - 64 - 4) = k by omega]

theorem opField_and (v w : CmdWord) : opField (v &&& w) = opField v &&& opField w := BitVec.extractLsb'_and

theorem argField_and (v w : CmdWord) : argField (v &&& w) = argField v &&& argField w := BitVec.extractLsb'_and

theorem dataField_and (v w : CmdWord) : dataField (v &&& w) = dataField v &&& dataField w := BitVec.extractLsb'_and

theorem word_eq_iff_fields {v w : CmdWord} :
    v = w ↔ opField v = opField w ∧ argField v = argField w ∧ dataField v = dataField w := by
  refine ⟨fun h => by simp [h], fun ⟨hop, harg, hdata⟩ => ?_⟩
  rw [← assembleFields_fields v, hop, harg, hdata, assembleFields_fields]

/-- The used bits of a command hold all of `op` and `arg` (30_encoding.md R85), so that only the data is masked. -/
theorem assembleFields_eq_and_iff {op arg : BitVec 4} {data mask : Word} {w : CmdWord} :
    assembleFields op arg data = w &&& assembleFields 0xF 0xF mask ↔
      opField w = op ∧ argField w = arg ∧ dataField w &&& mask = data := by
  have hones (x : BitVec 4) : x &&& 0xF = x := BitVec.and_allOnes
  simp only [word_eq_iff_fields, opField_and, argField_and, dataField_and, opField_assembleFields,
    argField_assembleFields, dataField_assembleFields, hones, eq_comm]

/-- FINALIZE and RESET use none of the data (30_encoding.md R81, R82). -/
theorem bareWord_eq_and_iff {op : BitVec 4} {w : CmdWord} :
    assembleFields op 0 0 = w &&& assembleFields 0xF 0xF 0 ↔ opField w = op ∧ argField w = 0 := by
  rw [assembleFields_eq_and_iff]
  simp

/-! ### The `arg` of INIT -/

theorem sizeOfCode_eq_some_iff {c : BitVec 2} {ds : DigestSize} : sizeOfCode c = some ds ↔ c = codeOfSize ds := by
  revert c
  cases ds <;> decide

theorem sizeOfCode_eq_none_iff {c : BitVec 2} : sizeOfCode c = none ↔ c = 0b11#2 := by
  revert c
  decide

/-- The three subfields of INIT's `arg` (30_encoding.md R79) are all of it. -/
theorem argField_eq_init_iff {w : CmdWord} {e : Bool} {c : BitVec 2} :
    argField w = (0#1 ++ BitVec.ofBool e) ++ c ↔ reservedBit w = false ∧ keyEnBit w = e ∧ sizeField w = c := by
  have hreserved : reservedBit w = (argField w).getLsbD 3 := by simp [reservedBit, argField]
  have hkeyEn : keyEnBit w = (argField w).getLsbD 2 := by simp [keyEnBit, argField]
  have hsize : sizeField w = (argField w).extractLsb' 0 2 := by
    ext k hk
    simp [sizeField, argField, show k < 4 by omega]
  rw [hreserved, hkeyEn, hsize]
  generalize argField w = arg
  revert arg e c
  decide

/-! ### The bytes of ABSORB -/

/-- The used bits of ABSORB's data are its first `n` lanes. -/
theorem laneByte_and_usedLanes (x : Word) {n k : Nat} (hn : n ≤ 8) (hk : k < 8) :
    laneByte (x &&& BitVec.allOnes 64 <<< (64 - 8 * n)) k = if k < n then laneByte x k else 0 := by
  ext i hi
  have hin : 56 - 8 * k + i < 64 := by omega
  simp only [laneByte, BitVec.getElem_extractLsb', BitVec.getLsbD_and, BitVec.getLsbD_shiftLeft, BitVec.getLsbD_allOnes]
  split
  case isTrue hlane =>
    have hused : ¬ 56 - 8 * k + i < 64 - 8 * n := by omega
    have hmask : 56 - 8 * k + i - (64 - 8 * n) < 64 := by omega
    simp [hin, hused, hmask]
  case isFalse hlane =>
    have hignored : 56 - 8 * k + i < 64 - 8 * n := by omega
    simp [hignored]

theorem leftAligned_absorbBytes {n : Nat} (hn : n ≤ 8) (x : Word) :
    leftAligned (absorbBytes n x) = x &&& BitVec.allOnes 64 <<< (64 - 8 * n) := by
  refine word_ext_lanes fun k hk => ?_
  rw [laneByte_leftAligned (by simpa using hn) hk, laneByte_and_usedLanes x hn hk]
  split
  case isTrue hlane => simp [absorbBytes, hlane]
  case isFalse hlane => simp [absorbBytes, hlane]

theorem absorbBytes_leftAligned {bs : List Byte} (h : bs.length ≤ 8) : absorbBytes bs.length (leftAligned bs) = bs := by
  refine List.ext_getElem (by simp) fun k _ hk => ?_
  simp [absorbBytes, laneByte_leftAligned h (show k < 8 by omega), hk]

theorem absorbBytes_and_usedLanes {n : Nat} (hn : n ≤ 8) (x : Word) :
    absorbBytes n (x &&& BitVec.allOnes 64 <<< (64 - 8 * n)) = absorbBytes n x := by
  refine List.map_congr_left fun k hk => ?_
  have hlt : k < n := List.mem_range.mp hk
  rw [laneByte_and_usedLanes x hn (by omega), if_pos hlt]

theorem absorbBytes_eq_iff {bs : List Byte} (h : bs.length ≤ 8) (x : Word) :
    absorbBytes bs.length x = bs ↔ x &&& BitVec.allOnes 64 <<< (64 - 8 * bs.length) = leftAligned bs := by
  constructor
  · intro hbs
    rw [← leftAligned_absorbBytes h, hbs]
  · intro hx
    rw [← absorbBytes_and_usedLanes h, hx, absorbBytes_leftAligned h]

/-! ### Decoding by opcode -/

/-- The four opcodes exclude each other, and every other one is refused (30_encoding.md R77). -/
theorem decode_eq_iff {w : CmdWord} {d : Decoded} :
    decode w = d ↔
      (opField w = 1 ∧ decodeInit w = d) ∨ (opField w = 2 ∧ decodeAbsorb w = d) ∨
      (opField w = 3 ∧ decodeBare .finalize w = d) ∨ (opField w = 4 ∧ decodeBare .reset w = d) ∨
      (opField w ∉ [1#4, 2#4, 3#4, 4#4] ∧ .illegal .illegalOpcode = d) := by
  by_cases hinit : opField w = 1#4
  · simp [decode, hinit]
  by_cases habsorb : opField w = 2#4
  · simp [decode, habsorb]
  by_cases hfinalize : opField w = 3#4
  · simp [decode, hfinalize]
  by_cases hreset : opField w = 4#4
  · simp [decode, hreset]
  simp [decode, hinit, habsorb, hfinalize, hreset]

theorem decodeInit_eq_legal_iff {w : CmdWord} {i : Instr} :
    decodeInit w = .legal i ↔ ∃ ds, reservedBit w = false ∧ sizeField w = codeOfSize ds ∧
      .init ds (keyEnBit w) (if keyEnBit w then dataField w else 0) = i := by
  simp only [← sizeOfCode_eq_some_iff]
  unfold decodeInit
  split
  case isTrue hreserved => simp [hreserved]
  case isFalse hreserved => split <;> simp [*]

theorem decodeAbsorb_eq_legal_iff {w : CmdWord} {i : Instr} :
    decodeAbsorb w = .legal i ↔
      (argField w).toNat ≤ 8 ∧ .absorb (absorbBytes (argField w).toNat (dataField w)) = i := by
  unfold decodeAbsorb
  split <;> simp [*]

theorem decodeBare_eq_legal_iff {w : CmdWord} {i j : Instr} : decodeBare j w = .legal i ↔ argField w = 0 ∧ j = i := by
  by_cases harg : argField w = 0#4 <;> simp [decodeBare, harg]

/-! ### The words of each command, by their fields -/

theorem decode_eq_init_iff {w : CmdWord} {ds : DigestSize} {e : Bool} {k : Word} :
    decode w = .legal (.init ds e k) ↔ opField w = 1 ∧ argField w = (0#1 ++ BitVec.ofBool e) ++ codeOfSize ds ∧
      (if e then dataField w else 0) = k := by
  simp only [argField_eq_init_iff, decode_eq_iff, decodeInit_eq_legal_iff, decodeAbsorb_eq_legal_iff,
    decodeBare_eq_legal_iff, Instr.init.injEq, reduceCtorEq, and_false, or_false]
  constructor
  · rintro ⟨hop, _, hreserved, hsize, rfl, rfl, hkey⟩
    exact ⟨hop, ⟨hreserved, rfl, hsize⟩, hkey⟩
  · rintro ⟨hop, ⟨hreserved, rfl, hsize⟩, hkey⟩
    exact ⟨hop, ds, hreserved, hsize, rfl, rfl, hkey⟩

theorem decode_eq_absorb_iff {w : CmdWord} {bs : List Byte} :
    decode w = .legal (.absorb bs) ↔ opField w = 2 ∧ bs.length ≤ 8 ∧ argField w = BitVec.ofNat 4 bs.length ∧
      absorbBytes bs.length (dataField w) = bs := by
  simp only [decode_eq_iff, decodeInit_eq_legal_iff, decodeAbsorb_eq_legal_iff, decodeBare_eq_legal_iff,
    Instr.absorb.injEq, reduceCtorEq, and_false, exists_false, false_or, or_false, and_congr_right_iff]
  intro _
  constructor
  · rintro ⟨hn, hbs⟩
    have hlen : bs.length = (argField w).toNat := by simp [← hbs]
    rw [hlen, BitVec.ofNat_toNat, BitVec.setWidth_eq]
    exact ⟨hn, rfl, hbs⟩
  · rintro ⟨hn, harg, hbs⟩
    have hlen : (argField w).toNat = bs.length := by rw [harg, BitVec.toNat_ofNat, Nat.mod_eq_of_lt (by omega)]
    rw [hlen]
    exact ⟨hn, hbs⟩

theorem decode_eq_finalize_iff {w : CmdWord} : decode w = .legal .finalize ↔ opField w = 3 ∧ argField w = 0 := by
  simp [decode_eq_iff, decodeInit_eq_legal_iff, decodeAbsorb_eq_legal_iff, decodeBare_eq_legal_iff]

theorem decode_eq_reset_iff {w : CmdWord} : decode w = .legal .reset ↔ opField w = 4 ∧ argField w = 0 := by
  simp [decode_eq_iff, decodeInit_eq_legal_iff, decodeAbsorb_eq_legal_iff, decodeBare_eq_legal_iff]

/-! ### Decoding against encoding -/

/-- The legal words of a command, all of them: its canonical word, with anything in the ignored bits. -/
theorem decode_eq_legal_iff {w : CmdWord} {i : Instr} :
    decode w = .legal i ↔ i.wellFormed = true ∧ encode i = w &&& usedBits i := by
  cases i with
  | init ds e k =>
    simp only [Instr.wellFormed, initWellFormed, encode, usedBits, assembleFields_eq_and_iff, decode_eq_init_iff]
    cases e with
    | false =>
      constructor
      · rintro ⟨hop, harg, rfl⟩
        exact ⟨rfl, hop, harg, BitVec.and_zero⟩
      · rintro ⟨hkey, hop, harg, -⟩
        exact ⟨hop, harg, (eq_of_beq hkey).symm⟩
    | true => simp only [Bool.true_or, if_true, BitVec.and_allOnes, true_and]
  | absorb bs =>
    simp only [Instr.wellFormed, absorbWellFormed, decide_eq_true_eq, encode, usedBits, assembleFields_eq_and_iff,
      decode_eq_absorb_iff]
    constructor
    · rintro ⟨hop, hlen, harg, hbs⟩
      exact ⟨hlen, hop, harg, (absorbBytes_eq_iff hlen _).mp hbs⟩
    · rintro ⟨hlen, hop, harg, hdata⟩
      exact ⟨hop, hlen, harg, (absorbBytes_eq_iff hlen _).mpr hdata⟩
  | finalize => simp only [Instr.wellFormed, encode, usedBits, bareWord_eq_and_iff, decode_eq_finalize_iff, true_and]
  | reset => simp only [Instr.wellFormed, encode, usedBits, bareWord_eq_and_iff, decode_eq_reset_iff, true_and]

/-- A canonical word has its ignored bits 0 (30_encoding.md R85). -/
theorem encode_and_usedBits {i : Instr} (h : i.wellFormed = true) : encode i &&& usedBits i = encode i := by
  refine Eq.symm ?_
  cases i with
  | init ds e k =>
    refine assembleFields_eq_and_iff.mpr ⟨opField_assembleFields _ _ _, argField_assembleFields _ _ _, ?_⟩
    rw [encode, dataField_assembleFields]
    cases e with
    | false => exact BitVec.and_zero
    | true => exact BitVec.and_allOnes
  | absorb bs =>
    have hlen : bs.length ≤ 8 := by simpa [Instr.wellFormed, absorbWellFormed] using h
    refine assembleFields_eq_and_iff.mpr ⟨opField_assembleFields _ _ _, argField_assembleFields _ _ _, ?_⟩
    rw [encode, dataField_assembleFields, ← absorbBytes_eq_iff hlen, absorbBytes_leftAligned hlen]
  | finalize => decide
  | reset => decide

/-- Settles O11: a canonical word is its own used bits. -/
theorem decodeEncodeRoundTrip : Obligations.DecodeEncodeRoundTrip := fun _ h =>
  decode_eq_legal_iff.mpr ⟨h, (encode_and_usedBits h).symm⟩

/-- Settles O12, from the description of the legal words. -/
theorem encodeDecodeKeepsUsedBits : Obligations.EncodeDecodeKeepsUsedBits := fun _ _ => decode_eq_legal_iff.mp

/-- Settles O13: the description of the legal words reads only their used bits. -/
theorem ignoredBitsHaveNoEffect : Obligations.IgnoredBitsHaveNoEffect := by
  intro v w i hw hvw
  rw [decode_eq_legal_iff] at hw ⊢
  rwa [hvw]

end Sys2Proof.Machine
end

section
/-! PROOF. The illegal words, their causes and their effect (30_encoding.md R84). -/

namespace Sys2Proof.Machine

theorem decodeInit_eq_illegal_iff {w : CmdWord} {c : Cause} :
    decodeInit w = .illegal c ↔ (reservedBit w = true ∨ sizeField w = 0b11#2) ∧ .illegalField = c := by
  rw [← sizeOfCode_eq_none_iff]
  unfold decodeInit
  split
  case isTrue hreserved => simp [hreserved]
  case isFalse hreserved => split <;> simp [*]

theorem decodeAbsorb_eq_illegal_iff {w : CmdWord} {c : Cause} :
    decodeAbsorb w = .illegal c ↔ 9 ≤ (argField w).toNat ∧ .illegalField = c := by
  unfold decodeAbsorb
  split
  case isTrue hn => simp [Nat.not_le.mpr (Nat.lt_succ_of_le hn)]
  case isFalse hn => simp [Nat.succ_le_of_lt (Nat.not_le.mp hn)]

theorem decodeBare_eq_illegal_iff {w : CmdWord} {j : Instr} {c : Cause} :
    decodeBare j w = .illegal c ↔ argField w ≠ 0 ∧ .illegalField = c := by
  by_cases harg : argField w = 0#4 <;> simp [decodeBare, harg]

theorem decode_eq_illegalOpcode_iff {w : CmdWord} :
    decode w = .illegal .illegalOpcode ↔ opField w ∉ [1#4, 2#4, 3#4, 4#4] := by
  simp only [decode_eq_iff, decodeInit_eq_illegal_iff, decodeAbsorb_eq_illegal_iff, decodeBare_eq_illegal_iff,
    reduceCtorEq, and_false, false_or, and_true]

theorem decode_eq_illegalField_iff {w : CmdWord} :
    decode w = .illegal .illegalField ↔
      (opField w = 1 ∧ (reservedBit w = true ∨ sizeField w = 0b11#2)) ∨
      (opField w = 2 ∧ 9 ≤ (argField w).toNat) ∨
      ((opField w = 3 ∨ opField w = 4) ∧ argField w ≠ 0) := by
  simp only [decode_eq_iff, decodeInit_eq_illegal_iff, decodeAbsorb_eq_illegal_iff, decodeBare_eq_illegal_iff,
    Decoded.illegal.injEq, reduceCtorEq, and_false, or_false, and_true, or_and_right]

theorem decode_illegal_cause {w : CmdWord} {c : Cause} (h : decode w = .illegal c) :
    c = .illegalOpcode ∨ c = .illegalField := by
  simp only [decode_eq_iff, decodeInit_eq_illegal_iff, decodeAbsorb_eq_illegal_iff, decodeBare_eq_illegal_iff,
    Decoded.illegal.injEq] at h
  rcases h with ⟨_, _, rfl⟩ | ⟨_, _, rfl⟩ | ⟨_, _, rfl⟩ | ⟨_, _, rfl⟩ | ⟨_, rfl⟩ <;> simp

/-- R84's list of the opcodes with no command is the complement of R77's four. -/
theorem opcode_not_command_iff (op : BitVec 4) :
    op ∉ [1#4, 2#4, 3#4, 4#4] ↔
      op ∈ [0x0#4, 0x5#4, 0x6#4, 0x7#4, 0x8#4, 0x9#4, 0xA#4, 0xB#4, 0xC#4, 0xD#4, 0xE#4, 0xF#4] := by
  revert op
  decide

theorem execute_of_illegal {w : CmdWord} {c : Cause} (hw : decode w = .illegal c) (s : State) :
    execute w s = .next (refuseIllegal c s) := by
  simp only [execute, hw]

/-- Settles O14: the two lists from decoding by opcode, the effect from that of a refused word. -/
theorem illegalWordsAreExactlyTheListed : Obligations.IllegalWordsAreExactlyTheListed := by
  refine ⟨fun w => decode_eq_illegalOpcode_iff.trans (opcode_not_command_iff _), fun w => decode_eq_illegalField_iff,
    fun w c => decode_illegal_cause, fun w c s hw => ?_⟩
  rw [execute_of_illegal hw]
  rcases refuseIllegal_cases c s with ⟨hfault, hr⟩ | ⟨hfault, hr⟩
  · exact ⟨fun _ => by rw [hr], fun h => absurd hfault h⟩
  · exact ⟨fun h => absurd h hfault, fun _ => ⟨_, rfl, by rw [hr, raiseFault_fsm], by rw [hr, raiseFault_faultCause]⟩⟩

/-- Settles O15, the fixed table, by evaluation. -/
theorem canonicalWordsDecode : Obligations.CanonicalWordsDecode := ⟨by decide, by decide, by decide, by decide⟩

end Sys2Proof.Machine
end

section
/-! PROOF. The assembler's lines and the expansion of ABSORBX (30_encoding.md R87, R88). -/

namespace Sys2Proof.Machine

/-! ### The chunks of a message -/

theorem chunk_length_le (m : List Byte) (q : Nat) : (chunk m q).length ≤ 8 := List.length_take_le _ _

/-- The first `n` chunks are the first `8n` bytes. -/
theorem flatten_chunks (m : List Byte) (n : Nat) : ((List.range n).map (chunk m)).flatten = m.take (8 * n) := by
  induction n with
  | zero => simp
  | succ n ih => simp [List.range_succ, ih, chunk, Nat.mul_succ, List.take_add]

/-- All the chunks are the message. -/
theorem flatten_all_chunks (m : List Byte) : ((List.range (chunkCount m)).map (chunk m)).flatten = m := by
  rw [flatten_chunks, List.take_of_length_le]
  unfold chunkCount
  omega

theorem chunkCount_pos {m : List Byte} (h : m ≠ []) : 0 < chunkCount m := by
  have := List.length_pos_of_ne_nil h
  unfold chunkCount
  omega

/-- Settles O50: the ABSORBs of a non-empty message are its chunks. -/
theorem absorbXDeliversMessage : Obligations.AbsorbXDeliversMessage := by
  intro m
  by_cases hm : m = []
  · exact ⟨[[]], by simp [absorbX, hm], by simp, by simp [hm], by simp, fun _ => rfl, fun h => absurd hm h⟩
  · refine ⟨(List.range (chunkCount m)).map (chunk m), by simp [absorbX, hm], ?_, flatten_all_chunks m, ?_,
      fun h => absurd h hm, fun _ => ⟨by simp [chunkCount], fun q hq => ?_⟩⟩
    · simpa using (chunkCount_pos hm).ne'
    · intro bs hbs
      obtain ⟨q, -, rfl⟩ := List.mem_map.mp hbs
      exact chunk_length_le m q
    · have hlt : q < chunkCount m := by unfold chunkCount; omega
      simp [hlt, chunk]

/-! ### The assembler's lines -/

theorem sizeOfBits_eq_none_iff {bits : Nat} : sizeOfBits bits = none ↔ bits ∉ [128, 256, 512] := by
  unfold sizeOfBits
  split_ifs <;> simp [*]

theorem assembleLine_wellFormed {l : AsmLine} {i : Instr} (h : assembleLine l = some i) : i.wellFormed = true := by
  cases l with
  | init size key =>
    cases key with
    | none =>
      obtain ⟨ds, -, rfl⟩ := Option.map_eq_some_iff.mp h
      rfl
    | some k =>
      rw [assembleLine, Option.ite_none_right_eq_some] at h
      obtain ⟨ds, -, rfl⟩ := Option.map_eq_some_iff.mp h.2
      rfl
  | absorb n data =>
    rw [assembleLine, Option.ite_none_right_eq_some] at h
    obtain ⟨⟨hn, -⟩, hi⟩ := h
    cases hi
    simpa [Instr.wellFormed, absorbWellFormed] using hn
  | finalize => cases h; rfl
  | reset => cases h; rfl

theorem assembleLine_init_eq_none_iff {size : Nat} {key : Option Nat} :
    assembleLine (.init size key) = none ↔ size ∉ [128, 256, 512] ∨ ∃ k, key = some k ∧ 2 ^ 64 ≤ k := by
  rw [← sizeOfBits_eq_none_iff]
  cases key with
  | none => simp [assembleLine]
  | some k =>
    simp only [assembleLine, ite_eq_right_iff, Option.map_eq_none_iff, Option.some.injEq, exists_eq_left']
    rw [imp_iff_or_not, Nat.not_lt]

theorem assembleLine_absorb_eq_none_iff {n data : Nat} :
    assembleLine (.absorb n data) = none ↔ 8 < n ∨ 2 ^ 64 ≤ data := by
  simp only [assembleLine, ite_eq_right_iff, reduceCtorEq, imp_false]
  rw [Classical.not_and_iff_not_or_not, Nat.not_le, Nat.not_lt]

theorem assembleLine_eq_none_iff {l : AsmLine} :
    assembleLine l = none ↔
      (∃ size key, l = .init size key ∧ (size ∉ [128, 256, 512] ∨ ∃ k, key = some k ∧ 2 ^ 64 ≤ k)) ∨
      (∃ n data, l = .absorb n data ∧ (8 < n ∨ 2 ^ 64 ≤ data)) := by
  cases l with
  | init size key => simp [assembleLine_init_eq_none_iff]
  | absorb n data => simp [assembleLine_absorb_eq_none_iff]
  | finalize => simp [assembleLine]
  | reset => simp [assembleLine]

/-- Settles O51, the two halves line by line. -/
theorem assemblerRefusesWhatDoesNotFit : Obligations.AssemblerRefusesWhatDoesNotFit := fun _ =>
  ⟨fun _ => assembleLine_wellFormed, assembleLine_eq_none_iff⟩

end Sys2Proof.Machine
end

section
/-! PROOF. The noise function (40_noise_generator.md R101 to R103). -/

namespace Sys2Proof.Machine

/-! ### The byte loop -/

/-- The loop as a fold: the recursion of `noiseLoop` is that of the fold over the bytes with their indices. -/
theorem noiseLoop_eq_foldl (i : Nat) (bs : List Byte) (acc : Word) :
    noiseLoop i bs acc = (bs.zipIdx i).foldl (fun acc p => noiseStep acc p.1 p.2) acc := by
  induction bs generalizing i acc with
  | nil => rfl
  | cons b bs ih => rw [noiseLoop, ih, List.zipIdx_cons, List.foldl_cons]

theorem noiseAcc_eq_foldl (input : List Byte) (seed : Word) :
    noiseAcc input seed = input.zipIdx.foldl (fun acc p => noiseStep acc p.1 p.2) seed := noiseLoop_eq_foldl 0 input seed

@[simp] theorem noiseAcc_nil (seed : Word) : noiseAcc [] seed = seed := rfl

theorem noiseAcc_concat (m : List Byte) (b : Byte) (seed : Word) :
    noiseAcc (m ++ [b]) seed = noiseStep (noiseAcc m seed) b m.length := by
  simp [noiseAcc_eq_foldl, List.zipIdx_append]

/-- The multiplier `(index + 1) mod 2^64` sees of the index its low 64 bits only. -/
theorem noiseStep_mod (acc : Word) (b : Byte) (i : Nat) : noiseStep acc b (i % 2 ^ 64) = noiseStep acc b i := by
  have hmul : BitVec.ofNat 64 (i % 2 ^ 64 + 1) = BitVec.ofNat 64 (i + 1) := by
    apply BitVec.eq_of_toNat_eq
    simp only [BitVec.toNat_ofNat, Nat.mod_add_mod]
  rw [noiseStep, hmul, noiseStep]

/-! ### The two halves -/

theorem noise_eq_noisePost (input : List Byte) (round : Nat) (p : Word) (key : Option Word) :
    noise input round p key = noisePost (noiseAcc input (key.getD p)) round := by
  cases key with
  | none => rfl
  | some k => rfl

theorem noise_nil (round : Nat) (p : Word) (key : Option Word) :
    noise [] round p key = noisePost (key.getD p) round := by
  rw [noise_eq_noisePost, noiseAcc_nil]

/-- Settles O36: the split at the round, the loop as a fold, and the two halves' constants by definition. -/
theorem noiseAlgorithm : Obligations.NoiseAlgorithm := by
  intro input round p key
  rw [noise_eq_noisePost, noiseAcc_eq_foldl]
  rfl

/-- Settles O37. ABSORB's part: the 128-bit counter and its low 64 bits give the same multiplier. -/
theorem noiseSplitsAtRound : Obligations.NoiseSplitsAtRound := by
  refine ⟨noise_eq_noisePost, noiseAcc_concat, fun s b => ?_⟩
  rw [absorbByte_nacc, BitVec.toNat_setWidth, noiseStep_mod]

/-- Settles O38: with no bytes the noise is `NoisePost` of the seed, which the listed rounds evaluate. -/
theorem noiseOfEmptyInput : Obligations.NoiseOfEmptyInput := by
  refine ⟨noiseAcc_nil, fun round p => noise_nil round p none, ?_⟩
  simp only [noise_nil]
  decide

end Sys2Proof.Machine
end

section
/-! PROOF. The round constant (41_constant_generator.md R111). -/

namespace Sys2Proof.Machine

/-- R111's formula over the noise value, with the values 00_scope.md R7 gives its named constants. -/
theorem combineConstant_eq (round : Nat) (noiseValue : Word) (hl : Nat) :
    combineConstant round noiseValue hl =
      rotl 0x9E3779B97F4A7C15 (round % 64) * rotl (BitVec.ofNat 64 round + 0xABCDEF1234567890) 32
        + rotr (BitVec.ofNat 64 round + 0xABCDEF1234567890) 16 + rotl 0x7FFFFFFFFFFFFFFF (round % 32)
        + rotl noiseValue 8 + BitVec.ofNat 64 hl := rfl

/-- The form the hardware evaluates: the input and the key enter through the noise accumulator only. -/
theorem roundConstant_eq_rc (round : Nat) (input : List Byte) (hl : Nat) (key : Option Word) :
    roundConstant round input hl key = rc round (noiseAcc input (key.getD prime)) hl := by
  rw [roundConstant, noisePrime, noise_eq_noisePost, rc]

/-- Settles O39: the formula at the noise value of R111, and the noise split at the round (R102). -/
theorem roundConstantFormula : Obligations.RoundConstantFormula := fun round hl input key =>
  ⟨combineConstant_eq round (noise input round prime key) hl, roundConstant_eq_rc round input hl key⟩

end Sys2Proof.Machine
end

section
/-! PROOF. One round word by word, and the states whose words are all equal (42_arx_round_engine.md R121, R123, R127). -/

namespace Sys2Proof.Machine

/-! ### The new words of a round -/

/-- The array's 40 words hold the state of every size, so that a round writes each word in use. -/
theorem getWord_arxRound_of_lt {ds : DigestSize} {i : Nat} (hi : i < wordCount ds) (old : Words) (c : Word) :
    getWord (arxRound (wordCount ds) old c) i = arxWord (wordCount ds) old c i := by
  rw [getWord_arxRound, if_pos ⟨hi, hi.trans_le (wordCount_le ds)⟩]

theorem getWord_arxRound_of_ge {n i : Nat} (hi : n ≤ i) (old : Words) (c : Word) :
    getWord (arxRound n old c) i = getWord old i := by
  rw [getWord_arxRound, if_neg fun ⟨hlt, _⟩ => Nat.not_lt.mpr hi hlt]

/-- R121's formula, with the values 00_scope.md R7 gives its named rotations. -/
theorem arxWord_eq (n : Nat) (old : Words) (c : Word) (i : Nat) :
    arxWord n old c i =
      rotl (rotl (getWord old i + c + getWord old ((i + 3) % n)) 29
        + (getWord old ((i + 1) % n) &&& getWord old ((i + 2) % n)) + rotr (getWord old ((i + 4) % n)) 17) 23 := rfl

/-- Settles O40: the formula for a word in use, the fill's frame for the others. -/
theorem roundFormula : Obligations.RoundFormula := fun ds old c =>
  ⟨fun i hi => (getWord_arxRound_of_lt hi old c).trans (arxWord_eq (wordCount ds) old c i),
    fun _ hi => getWord_arxRound_of_ge hi old c⟩

/-! ### The words a new word reads -/

theorem arxWord_congr_neighbours {n i : Nat} (hi : i < n) {v w : Words} (c : Word)
    (h : ∀ k, k < 5 → getWord v ((i + k) % n) = getWord w ((i + k) % n)) : arxWord n v c i = arxWord n w c i := by
  have hself : getWord v i = getWord w i := by simpa [Nat.mod_eq_of_lt hi] using h 0 (by decide)
  rw [arxWord, arxWord, hself, h 1 (by decide), h 2 (by decide), h 3 (by decide), h 4 (by decide)]

/-- Settles O41: a new word by its neighbours, and five offsets below the word count, which is more than 4. -/
theorem roundReadsFourNeighbours : Obligations.RoundReadsFourNeighbours := by
  intro ds c v w i hi
  have hfive : 5 ≤ wordCount ds := four_lt_wordCount ds
  refine ⟨fun h => ?_, fun j k hj hk h => ?_⟩
  · rw [getWord_arxRound_of_lt hi, getWord_arxRound_of_lt hi, arxWord_congr_neighbours hi c h]
  · have hmod : j ≡ k [MOD wordCount ds] := Nat.ModEq.add_left_cancel' i h
    exact hmod.eq_of_lt_of_lt (hj.trans_le hfive) (hk.trans_le hfive)

/-! ### States whose words are all equal -/

/-- The new word where the word and its four neighbours are all `x`: R121's formula at five equal words. -/
def uniformWord (x c : Word) : Word := rotl (rotl (x + c + x) 29 + x + rotr x 17) 23

/-- Every index sees the same five words (R127). -/
theorem arxWord_of_uniform {n i : Nat} {x : Word} {old : Words} (h : ∀ j, j < n → getWord old j = x) (hi : i < n)
    (c : Word) : arxWord n old c i = uniformWord x c := by
  have hneighbour (k : Nat) : getWord old ((i + k) % n) = x := h _ (Nat.mod_lt _ (Nat.zero_lt_of_lt hi))
  rw [arxWord_eq, h i hi, hneighbour, hneighbour, hneighbour, hneighbour, BitVec.and_self, uniformWord]

theorem getWord_arxRound_of_uniform {ds : DigestSize} {x : Word} {old : Words}
    (h : ∀ j, j < wordCount ds → getWord old j = x) (c : Word) :
    ∀ i, i < wordCount ds → getWord (arxRound (wordCount ds) old c) i = uniformWord x c := fun i hi => by
  rw [getWord_arxRound_of_lt hi, arxWord_of_uniform h hi]

/-- The common word after a sequence of rounds is the fold of `uniformWord` over their constants. -/
theorem getWord_arxRounds_of_uniform {ds : DigestSize} (cs : List Word) {x : Word} {old : Words}
    (h : ∀ j, j < wordCount ds → getWord old j = x) :
    ∀ i, i < wordCount ds → getWord (arxRounds (wordCount ds) old cs) i = cs.foldl uniformWord x := by
  unfold arxRounds
  induction cs generalizing x old with
  | nil => exact h
  | cons c cs ih =>
    simp only [List.foldl_cons]
    exact ih (getWord_arxRound_of_uniform h c)

/-- Settles O42: the fold from any common word, and the two values of R127 (a), (b) from the common word 0. -/
theorem equalWordsStayEqual : Obligations.EqualWordsStayEqual := by
  refine ⟨fun ds cs x old h => ⟨_, getWord_arxRounds_of_uniform cs h⟩, fun ds old h i hi => ?_⟩
  have hconst0 : uniformWord 0 0 = 0 := by decide
  have hconst1 : uniformWord 0 1 = 0x0010000000000000 := by decide
  rw [getWord_arxRound_of_uniform h 0 i hi, getWord_arxRound_of_uniform h 1 i hi]
  exact ⟨hconst0, hconst1⟩

end Sys2Proof.Machine
end

section
/-! PROOF. INIT and RESET, register by register (43_commands_init_reset.md R135 to R137). -/

namespace Sys2Proof.Machine

/-! ### What `EnterFresh` leaves -/

theorem getWord_enterFresh_of_lt {s : State} {i : Nat} (hi : i < wordCount s.ds) :
    getWord (enterFresh s).w i = iv s.ds i := by
  rw [enterFresh_w, getWord_fillWords]
  exact if_pos ⟨hi, hi.trans_le (wordCount_le s.ds)⟩

theorem enterFresh_sameConfig (s : State) : SameConfig s (enterFresh s) := by simp [SameConfig]

theorem enterFresh_samePort (s : State) : SamePort s (enterFresh s) := by simp [SamePort]

/-- In `FRESH` the word array already holds what `EnterFresh` writes (10_state.md R37 (e)). -/
theorem Inv.fillWords_iv {s : State} (h : Inv s) (hfresh : s.fsm = .fresh) :
    fillWords s.wordsInUse (iv s.ds) s.w = s.w := by
  refine words_ext fun i _ => ?_
  rw [getWord_fillWords]
  split
  case isTrue hin => exact (h.freshWords hfresh i hin.1).symm
  case isFalse => rfl

/-- Every register that `EnterFresh` writes has that value in `FRESH` already. -/
theorem Inv.enterFresh_eq_self {s : State} (h : Inv s) (hfresh : s.fsm = .fresh) : enterFresh s = s := by
  obtain ⟨hlen, hwidx, htail, hnacc⟩ := h.fresh hfresh
  have hvalid : s.digestValid = false := by simpa [hfresh] using h.digestValid
  have hcause : s.faultCause = .none := by simpa [hfresh] using h.cause
  rw [enterFresh, h.fillWords_iv hfresh, ← hlen, ← hwidx, ← htail, ← hnacc, ← h.noDigest hvalid, ← hvalid, ← hcause,
    ← hfresh]

/-- Settles O26: RESET is `EnterFresh` on a configured core, which `FRESH` is. -/
theorem resetInFreshChangesNothing : Obligations.ResetInFreshChangesNothing := by
  intro s h hfresh
  have hreset : exec .reset s = .next (enterFresh s) := execReset_of_configured (h.configured (.inl hfresh))
  rw [hreset, h.enterFresh_eq_self hfresh]

/-! ### INIT -/

/-- The seed under the key operand as INIT stores it (10_state.md R35). -/
theorem seed_configure (ds : DigestSize) (e : Bool) (k : Word) (s : State) :
    (configure ds e k s).seed = if e then k else 0x9E3779B97F4A7C15 := by
  cases e <;> rfl

/-- A refused word outside `FAULT` (60_exceptions.md R204) leaves the configuration. -/
theorem execute_illegal_outside_fault {w : CmdWord} {c : Cause} (hw : decode w = .illegal c) {s : State}
    (hf : s.fsm ≠ .fault) : execute w s = .next (raiseFault c s) := by
  rw [execute_of_illegal hw, refuseIllegal, if_neg hf]

/-- Settles O23: INIT is `EnterFresh` on the new configuration; the malformed word is refused by the decoder. -/
theorem initResult : Obligations.InitResult := by
  refine ⟨fun ds e k s => ⟨enterFresh (configure ds e k s), rfl, ?_⟩, fun w s hop hfield hf => ?_⟩
  · have hwords : SameWordsFrom (wordCount ds) s (enterFresh (configure ds e k s)) :=
      sameWordsFrom_enterFresh (configure ds e k s)
    have hport : SamePort s (enterFresh (configure ds e k s)) := enterFresh_samePort (configure ds e k s)
    refine ⟨by simp, by simp, by simp, by simp, fun i hi => ?_, hwords, by simp, by simp, by simp, ?_, by simp, by simp,
      by simp, by simp, hport⟩
    · exact getWord_enterFresh_of_lt (s := configure ds e k s) hi
    · rw [enterFresh_nacc, seed_configure]
  · have hw : decode w = .illegal .illegalField := decode_eq_illegalField_iff.mpr (.inl ⟨hop, hfield⟩)
    exact ⟨_, execute_illegal_outside_fault hw hf, by simp, by simp, by simp [SameConfig]⟩

/-! ### RESET -/

/-- Settles O24, one clause per case of RESET's checks, and its `arg` by the decoder's list of illegal words. -/
theorem resetCommandResult : Obligations.ResetCommandResult := by
  refine ⟨fun s hc => ⟨enterFresh s, execReset_of_configured hc, ?_⟩, fun s hc hf => execReset_of_fault hf hc,
    fun s hc hf => execReset_of_notConfigured hf hc, fun w hop harg => ?_⟩
  · exact ⟨fun _ => getWord_enterFresh_of_lt, sameWordsFrom_enterFresh s, by simp, by simp, by simp, by simp, by simp,
      by simp, by simp, by simp, enterFresh_sameConfig s, enterFresh_samePort s⟩
  · exact decode_eq_illegalField_iff.mpr (.inr (.inr ⟨.inr hop, harg⟩))

end Sys2Proof.Machine
end

section
/-! PROOF. The microarchitectural registers, which only FINALIZE writes (10_state.md R36;
43_commands_init_reset.md R139; log 11). -/

namespace Sys2Proof.Machine

theorem sameMicro_refl (s : State) : SameMicro s s := ⟨rfl, rfl, rfl, rfl, rfl⟩

theorem raiseFault_sameMicro (c : Cause) (s : State) : SameMicro s (raiseFault c s) := by simp [SameMicro]

theorem refuseIllegal_sameMicro (c : Cause) (s : State) : SameMicro s (refuseIllegal c s) := by
  rcases refuseIllegal_cases c s with ⟨_, hr⟩ | ⟨_, hr⟩
  · rw [hr]; exact sameMicro_refl s
  · rw [hr]; exact raiseFault_sameMicro c s

theorem enterFresh_sameMicro (s : State) : SameMicro s (enterFresh s) := by simp [SameMicro]

/-- Every command but FINALIZE, in every case of its checks. -/
theorem exec_sameMicro {i : Instr} (hi : i ≠ .finalize) {s t : State} (h : exec i s = .next t) : SameMicro s t := by
  cases i with
  | init ds e k =>
    rw [execInit_next h]
    simp [SameMicro]
  | absorb bs =>
    rcases execAbsorb_cases h with ⟨_, rfl⟩ | ⟨_, _, rfl⟩ | ⟨_, _, rfl⟩ | ⟨_, _, _, rfl⟩
    · exact sameMicro_refl _
    · exact raiseFault_sameMicro _ _
    · exact raiseFault_sameMicro _ _
    · obtain ⟨_, _, _, hmicro, _⟩ := absorbAll_frame bs s
      simpa [SameMicro] using hmicro
  | finalize => exact absurd rfl hi
  | reset =>
    rcases execReset_cases h with ⟨_, _, rfl⟩ | ⟨_, _, rfl⟩ | ⟨_, rfl⟩
    · exact sameMicro_refl _
    · exact raiseFault_sameMicro _ _
    · exact enterFresh_sameMicro _

/-- Settles O30: a legal word runs its command, and a refused one does at most the fault entry. -/
theorem engineRegistersChangeOnlyInFinalize : Obligations.EngineRegistersChangeOnlyInFinalize := by
  intro w s t hw hx
  rcases execute_cases hx with ⟨i, hi, hexec⟩ | ⟨c, _, rfl⟩
  · exact exec_sameMicro (fun hfin => hw (hfin ▸ hi)) hexec
  · exact refuseIllegal_sameMicro c s

end Sys2Proof.Machine
end

section
/-! PROOF. FINALIZE on registers that track a message presents the closed form `Digest(ds, key, M)`
(45_command_finalize.md R173, R176). -/

namespace Sys2Proof.Machine

/-! ### The squeezed bytes -/

/-- The squeeze reads words in use only. -/
theorem squeeze_congr {ds : DigestSize} {v w : Words} (h : ∀ i, i < wordCount ds → getWord v i = getWord w i) :
    squeeze ds v = squeeze ds w := by
  have hbyte (k : Nat) : squeezeByte ds v k = squeezeByte ds w k := by
    rw [squeezeByte, h _ (Nat.mod_lt _ (wordCount_pos ds)), squeezeByte]
  simp only [squeeze, hbyte]

/-- The first `8n` indices, eight at a time. -/
theorem map_range_eight_mul {α : Type} (f : Nat → α) (n : Nat) :
    (List.range (8 * n)).map f = (List.range n).flatMap fun i => (List.range 8).map fun k => f (8 * i + k) := by
  induction n with
  | zero => rfl
  | succ n ih =>
    rw [Nat.mul_succ, List.range_add, List.map_append, ih, List.range_succ (n := n), List.flatMap_append,
      List.flatMap_singleton, List.map_map]
    rfl

theorem outLen_eq_eight_mul (ds : DigestSize) : outLen ds = 8 * (outLen ds / 8) := by cases ds <;> rfl

/-- The digest's bytes are those of its words in order (45_command_finalize.md R173). -/
theorem digestBytes_of_squeeze {t : State} {ds : DigestSize} {w : Words} (h : t.digest = squeeze ds w) :
    digestBytes t (outLen ds) = (List.range (outLen ds / 8)).flatMap fun i => be64 (getWord w i) := by
  rw [digestBytes, h, outLen_eq_eight_mul, map_range_eight_mul, ← outLen_eq_eight_mul]
  refine List.flatMap_congr fun i hi => List.map_congr_left fun k hk => ?_
  have hword : i < outLen ds / 8 := List.mem_range.mp hi
  have hlane : k < 8 := List.mem_range.mp hk
  rw [digestByte_squeeze_of_lt ds w (by omega), squeezeByte_word ds w hword hlane]

/-! ### The words of the digest -/

theorem keyOption_getD (s : State) : s.keyOption.getD noisePrime = s.seed := by
  rw [State.keyOption, State.seed, seedOf]
  split <;> rfl

/-- `BitLength()` of a counted message (45_command_finalize.md R168), wrapped as the counter is. -/
theorem bitLength_ofNat (n : Nat) : bitLength (BitVec.ofNat 128 n) = BitVec.ofNat 128 (8 * n) := by
  apply BitVec.eq_of_toNat_eq
  simp only [bitLength, BitVec.toNat_shiftLeft, BitVec.toNat_ofNat, Nat.shiftLeft_eq]
  omega

theorem getWord_xorWord_congr {n i j : Nat} {v w : Words} (x : Word) (h : ∀ j, j < n → getWord v j = getWord w j)
    (hj : j < n) : getWord (xorWord v i x) j = getWord (xorWord w i x) j := by
  rw [getWord_xorWord, getWord_xorWord, h j hj]

/-- The padded tail block of the closed form, `pad` of the message's short last chunk (45_command_finalize.md R176). -/
def tailBlock (m : List Byte) : List Byte :=
  messageTail m ++ [padByte] ++ List.replicate (7 - m.length % 8) 0 ++ be128 (BitVec.ofNat 128 (8 * m.length))

/-- The words FINALIZE leaves in use are those of the closed form, once `PT` holds the message's tail block. -/
theorem Tracks.getWord_finalWords {m : List Byte} {s : State} (h : Tracks m s)
    (hpt : ptBytes (paddedTail s.tail s.totalLen) = tailBlock m) :
    ∀ i, i < wordCount s.ds → getWord (finalWords s) i = getWord (digestWords s.ds s.keyOption m) i := by
  have hn := wordCount_pos s.ds
  have h40 := wordCount_le s.ds
  have hstart : ∀ i, i < wordCount s.ds → getWord s.w i = getWord (buildWords fun i =>
      if i < wordCount s.ds then iv s.ds i ^^^ chunkXor (wordCount s.ds) m i else 0) i := fun i hi => by
    rw [getWord_buildWords, if_pos (hi.trans_le h40), if_pos hi, h.words i hi]
  have hbits : bitLength s.totalLen = BitVec.ofNat 128 (8 * m.length) := by rw [h.totalLen, bitLength_ofNat]
  simp only [finalWords, digestWords, mainConstants, extraConstants, extraRoundCount, keyOption_getD, ← h.nacc, hbits,
    hpt, tailBlock]
  exact arxRounds_congr hn h40 _ fun i hi => getWord_xorWord_congr _ (arxRounds_congr hn h40 _ hstart) hi

theorem digestBytes_eq_digestOf {t : State} {ds : DigestSize} {key : Option Word} {m : List Byte}
    (h : t.digest = squeeze ds (digestWords ds key m)) : digestBytes t (outLen ds) = digestOf ds key m := by
  rw [digestBytes_of_squeeze h, digestOf]

theorem Tracks.digest_finalizeSteps {m : List Byte} {s : State} (h : Tracks m s)
    (hpt : ptBytes (paddedTail s.tail s.totalLen) = tailBlock m) :
    (finalizeSteps s).digest = squeeze s.ds (digestWords s.ds s.keyOption m) := by
  rw [finalizeSteps_digest, squeeze_congr (h.getWord_finalWords hpt)]

end Sys2Proof.Machine
end

section
/-! PROOF. RESET and INIT of the same configuration (43_commands_init_reset.md R138). -/

namespace Sys2Proof.Machine

/-! ### The empty message -/

/-- `FRESH` is the start of the message: its registers track the empty one. -/
theorem Inv.tracks_nil {s : State} (h : Inv s) (hfresh : s.fsm = .fresh) : Tracks [] s := by
  obtain ⟨hlen, hwidx, htail, hnacc⟩ := h.fresh hfresh
  exact
    { words := fun i hi => (h.freshWords hfresh i hi).trans (BitVec.xor_zero).symm
      totalLen := hlen
      widx := by simpa using hwidx
      tail := htail
      nacc := hnacc }

/-- The padded tail of the empty message (45_command_finalize.md R170). -/
theorem ptBytes_paddedTail_empty : ptBytes (paddedTail 0 0) = tailBlock [] := by decide

/-- FINALIZE in `FRESH`: the digest of the empty message, a function of the configuration alone. -/
theorem Inv.execFinalize_fresh {s : State} (h : Inv s) (hfresh : s.fsm = .fresh) :
    ∃ t, exec .finalize s = .next t ∧ t.digest = squeeze s.ds (digestWords s.ds s.keyOption []) := by
  obtain ⟨hlen, _, htail, _⟩ := h.fresh hfresh
  have hpt := ptBytes_paddedTail_empty
  rw [← hlen, ← htail] at hpt
  exact ⟨finalizeSteps s, execFinalize_of_accepting (by simp [hfresh]) (by simp [hfresh]) (h.configured (.inl hfresh)),
    (h.tracks_nil hfresh).digest_finalizeSteps hpt⟩

/-! ### INIT of the configuration a state has -/

/-- The INIT with a state's size and key stores that size and key. -/
theorem exec_initCommand_keyOption (ds : DigestSize) (s v : State) :
    exec (initCommand ds s.keyOption) v = .next (enterFresh (configure ds s.keyEn s.key v)) := by
  cases hkey : s.keyEn with
  | false => simp only [State.keyOption, hkey]; rfl
  | true => simp only [State.keyOption, hkey]; rfl

/-- Both ways into `FRESH` leave the same registers in use: the seed and the IV are functions of the configuration. -/
theorem agreeInUse_enterFresh {s v : State} (hs : SameConfig v s) : AgreeInUse (enterFresh v) (enterFresh s) := by
  obtain ⟨hvalid, hds, hkeyEn, hkey⟩ := hs
  have hseed : s.seed = v.seed := by rw [State.seed, State.seed, hkeyEn, hkey]
  refine ⟨by simp, by simp [SameConfig, hvalid, hds, hkeyEn, hkey], by simp [SameMessage, hseed],
    by simp [SameOutputs], fun i hi => ?_⟩
  rw [enterFresh_ds] at hi
  rw [getWord_enterFresh_of_lt (hds ▸ hi), getWord_enterFresh_of_lt hi, hds]

/-- An absent key is 0 in a state with the invariant, as INIT stores it (10_state.md R37 (h)). -/
theorem Inv.sameConfig_configure {s : State} (h : Inv s) (hc : s.cfgValid = true) (v : State) :
    SameConfig (configure s.ds s.keyEn s.key v) s := by
  have hkey := h.key
  cases hkeyEn : s.keyEn <;> simp_all [SameConfig]

theorem keyOption_of_sameConfig {s t : State} (h : SameConfig s t) : t.keyOption = s.keyOption := by
  obtain ⟨_, _, hkeyEn, hkey⟩ := h
  rw [State.keyOption, hkeyEn, hkey, State.keyOption]

/-- Settles O25: INIT and RESET are `EnterFresh` on the same configuration; from `FRESH` a RESET changes nothing, and a
FINALIZE gives the empty message's digest, whichever way `FRESH` was entered. -/
theorem resetEqualsInit : Obligations.ResetEqualsInit := by
  intro s v h hc
  have hconfig := h.sameConfig_configure hc v
  have hreset (r : State) (hr : r.cfgValid = true) : exec .reset r = .next (enterFresh r) := execReset_of_configured hr
  have ht : Inv (enterFresh s) := inv_enterFresh hc h.key
  have hu : Inv (enterFresh (configure s.ds s.keyEn s.key v)) := inv_enterFresh (by simp) (by simp +contextual)
  obtain ⟨t', hfint, hdigt⟩ := ht.execFinalize_fresh (enterFresh_fsm s)
  obtain ⟨u', hfinu, hdigu⟩ := hu.execFinalize_fresh (enterFresh_fsm _)
  rw [keyOption_of_sameConfig (enterFresh_sameConfig s), enterFresh_ds] at hdigt
  rw [keyOption_of_sameConfig (enterFresh_sameConfig _), ← keyOption_of_sameConfig hconfig, enterFresh_ds,
    configure_ds] at hdigu
  have hsecond : exec .reset (enterFresh s) = .next (enterFresh s) := by
    rw [hreset _ ((enterFresh_cfgValid s).trans hc), ht.enterFresh_eq_self (enterFresh_fsm s)]
  have hbytes : digestBytes t' (outLen s.ds) = digestOf s.ds s.keyOption [] := digestBytes_eq_digestOf hdigt
  have hsame : t'.digest = u'.digest := hdigt.trans hdigu.symm
  exact ⟨_, _, hreset s hc, exec_initCommand_keyOption s.ds s v, agreeInUse_enterFresh hconfig, hsecond, t', u', hfint,
    hfinu, hsame, hbytes⟩

end Sys2Proof.Machine
end

section
/-! PROOF. ABSORB in every `STATE`, and sequences of ABSORBs (44_command_absorb.md R150, R153, R154). -/

namespace Sys2Proof.Machine

/-! ### One ABSORB -/

theorem AcceptsMessage.fsm_ne_fault {s : State} (h : AcceptsMessage s) : s.fsm ≠ .fault := by
  obtain ⟨_, hfresh | habsorbing⟩ := h
  · simp [hfresh]
  · simp [habsorbing]

theorem AcceptsMessage.fsm_ne_finalized {s : State} (h : AcceptsMessage s) : s.fsm ≠ .finalized := by
  obtain ⟨_, hfresh | habsorbing⟩ := h
  · simp [hfresh]
  · simp [habsorbing]

/-- ABSORB past its checks: the bytes in order, then `ABSORBING`. -/
theorem AcceptsMessage.exec_absorb {s : State} (h : AcceptsMessage s) (bs : List Byte) :
    exec (.absorb bs) s = .next (enterAbsorbing (absorbAll bs s)) :=
  execAbsorb_of_accepting bs h.fsm_ne_fault h.fsm_ne_finalized h.1

theorem AcceptsMessage.exec_finalize {s : State} (h : AcceptsMessage s) :
    exec .finalize s = .next (finalizeSteps s) :=
  execFinalize_of_accepting h.fsm_ne_fault h.fsm_ne_finalized h.1

/-- Settles O28: each of ABSORB's checks in turn, and the decoder's list of illegal words. -/
theorem absorbOutcomes : Obligations.AbsorbOutcomes :=
  ⟨fun _ bs => ⟨fun ha => ha.exec_absorb bs, execAbsorb_of_fault bs, execAbsorb_of_notConfigured bs,
    fun hc hf => execAbsorb_of_finalized bs hf hc⟩,
   fun _ hop hn => decode_eq_illegalField_iff.mpr (.inr (.inl ⟨hop, hn⟩))⟩

/-! ### ABSORBs one after another -/

theorem acceptsMessage_enterAbsorbing {s : State} (hc : s.cfgValid = true) : AcceptsMessage (enterAbsorbing s) :=
  ⟨hc, .inr rfl⟩

theorem acceptsMessage_absorbAll {s : State} (h : AcceptsMessage s) (bs : List Byte) :
    AcceptsMessage (absorbAll bs s) := by
  obtain ⟨hfsm, ⟨hcfg, _⟩, _⟩ := absorbAll_frame bs s
  rwa [AcceptsMessage, hfsm, hcfg]

/-- Once `ABSORBING`, a sequence of ABSORBs is one absorption of all of its bytes, however they are cut. -/
theorem execAll_absorbs_enterAbsorbing (bss : List (List Byte)) {s : State} (h : AcceptsMessage s) :
    execAll (bss.map .absorb) (enterAbsorbing s) = .next (enterAbsorbing (absorbAll bss.flatten s)) := by
  induction bss generalizing s with
  | nil => rfl
  | cons bs bss ih =>
    have hfirst : exec (.absorb bs) (enterAbsorbing s) = .next (enterAbsorbing (absorbAll bs s)) := by
      rw [(acceptsMessage_enterAbsorbing h.1).exec_absorb, absorbAll_enterAbsorbing]
      rfl
    rw [List.map_cons, execAll, hfirst, List.flatten_cons, absorbAll_append]
    exact ih (acceptsMessage_absorbAll h bs)

/-- A non-empty sequence of ABSORBs is one ABSORB of all of its bytes. -/
theorem AcceptsMessage.execAll_absorbs {s : State} (h : AcceptsMessage s) {bss : List (List Byte)} (hne : bss ≠ []) :
    execAll (bss.map .absorb) s = .next (enterAbsorbing (absorbAll bss.flatten s)) := by
  cases bss with
  | nil => exact absurd rfl hne
  | cons bs bss =>
    rw [List.map_cons, execAll, h.exec_absorb, List.flatten_cons, absorbAll_append]
    exact execAll_absorbs_enterAbsorbing bss (acceptsMessage_absorbAll h bs)

/-- Settles O32: what a sequence leaves is a function of the concatenated bytes. -/
theorem chunkingTransparency : Obligations.ChunkingTransparency := by
  intro s bss css ha hb hc hsame
  exact ⟨_, ha.execAll_absorbs hb, hsame ▸ ha.execAll_absorbs hc⟩

/-! ### ABSORB of nothing -/

theorem exec_initCommand (ds : DigestSize) (key : Option Word) (s : State) :
    ∃ e k, exec (initCommand ds key) s = .next (enterFresh (configure ds e k s)) := by
  cases key with
  | none => exact ⟨false, 0, rfl⟩
  | some k => exact ⟨true, k, rfl⟩

/-- INIT and RESET leave a core that accepts a message. -/
theorem acceptsMessage_enterFresh {s : State} (hc : s.cfgValid = true) : AcceptsMessage (enterFresh s) :=
  ⟨(enterFresh_cfgValid s).trans hc, .inl (enterFresh_fsm s)⟩

/-- FINALIZE does not see whether an ABSORB of nothing came before it (10_state.md R25). -/
theorem exec_finalize_enterAbsorbing {s : State} (hfresh : s.fsm = .fresh) :
    exec .finalize (enterAbsorbing s) = exec .finalize s := by
  have halike := freshAndAbsorbingBehaveAlike .finalize s
  rw [← hfresh] at halike
  exact halike.symm

/-- Settles O31: no byte changes a register, and FINALIZE treats `FRESH` and `ABSORBING` alike. -/
theorem absorbNothing : Obligations.AbsorbNothing := by
  refine ⟨fun s ha => ha.exec_absorb [], fun s ds key => ?_⟩
  obtain ⟨e, k, hinit⟩ := exec_initCommand ds key s
  have ha : AcceptsMessage (enterFresh (configure ds e k s)) := acceptsMessage_enterFresh (configure_cfgValid _ _ _ _)
  refine ⟨_, ?_, ?_, finalizeSteps_fsm (enterFresh (configure ds e k s))⟩
  · simp only [execAll, hinit, ha.exec_absorb, absorbAll_nil, exec_finalize_enterAbsorbing (enterFresh_fsm _),
      ha.exec_finalize]
  · simp only [execAll, hinit, ha.exec_finalize]

end Sys2Proof.Machine
end

section
/-! PROOF. One message byte and its frame (44_command_absorb.md R150, R151, R156). -/

namespace Sys2Proof.Machine

/-! ### The effect of one byte -/

theorem getWord_absorbByte_of_ne {s : State} (b : Byte) {i : Nat} (hi : i ≠ s.widx.toNat) :
    getWord (absorbByte s b).w i = getWord s.w i := by
  rw [absorbByte_w, getWord_xorWord, if_neg fun h => hi h.1.symm]

theorem getWord_absorbByte_widx {s : State} (h : s.widx.toNat < wordCount s.ds) (b : Byte) :
    getWord (absorbByte s b).w s.widx.toNat = getWord s.w s.widx.toNat ^^^ placeByte b s.lane := by
  rw [absorbByte_w, getWord_xorWord, if_pos ⟨rfl, h.trans_le (wordCount_le s.ds)⟩]

/-- The last lane of a chunk moves on to the next word. -/
theorem absorbByte_widx_of_last {s : State} (hlast : s.lane = 7) (b : Byte) :
    (absorbByte s b).widx.toNat = (s.widx.toNat + 1) % wordCount s.ds := by
  rw [absorbByte_widx, if_pos hlast, State.wordsInUse,
    nextWidx_toNat (wordCount_pos s.ds) ((wordCount_le s.ds).trans (by decide))]

theorem absorbByte_widx_of_not_last {s : State} (hlast : s.lane ≠ 7) (b : Byte) : (absorbByte s b).widx = s.widx := by
  rw [absorbByte_widx, if_neg hlast]

theorem absorbByte_tail_of_last {s : State} (hlast : s.lane = 7) (b : Byte) : (absorbByte s b).tail = 0 := by
  rw [absorbByte_tail, if_pos hlast]

theorem absorbByte_tail_of_not_last {s : State} (hlast : s.lane ≠ 7) (b : Byte) :
    (absorbByte s b).tail = s.tail ||| placeByte b s.lane := by
  rw [absorbByte_tail, if_neg hlast]

/-- The registers that a byte leaves alone. -/
theorem absorbByte_frame (s : State) (b : Byte) :
    (absorbByte s b).fsm = s.fsm ∧ SameConfig s (absorbByte s b) ∧ SameOutputs s (absorbByte s b) ∧
      SamePort s (absorbByte s b) := by
  obtain ⟨hfsm, hconfig, houtputs, _, hport⟩ := absorbAll_frame [b] s
  exact ⟨hfsm, hconfig, houtputs, hport⟩

/-- Settles O27, register by register. -/
theorem absorbByteEffect : Obligations.AbsorbByteEffect := fun s b h =>
  ⟨getWord_absorbByte_widx h b, fun _ => getWord_absorbByte_of_ne b, absorbByte_nacc s b,
    fun hlast => ⟨absorbByte_tail_of_last hlast b, absorbByte_widx_of_last hlast b⟩,
    fun hlast => ⟨absorbByte_tail_of_not_last hlast b, absorbByte_widx_of_not_last hlast b⟩,
    by rw [absorbByte_totalLen, BitVec.toNat_add]; rfl, absorbByte_frame s b⟩

/-! ### The words the bytes of one command can reach -/

/-- Bytes that stay within the current chunk change its word only. -/
theorem getWord_absorbAll_within_chunk (bs : List Byte) {s : State} (hlen : s.lane + bs.length ≤ 8) {i : Nat}
    (hi : i ≠ s.widx.toNat) : getWord (absorbAll bs s).w i = getWord s.w i := by
  induction bs generalizing s with
  | nil => rfl
  | cons b bs ih =>
    rw [List.length_cons] at hlen
    rw [absorbAll_cons, ← getWord_absorbByte_of_ne b hi]
    by_cases hlast : s.lane = 7
    case pos =>
      obtain rfl : bs = [] := List.eq_nil_of_length_eq_zero (by omega)
      rfl
    case neg =>
      refine ih ?_ (by rwa [absorbByte_widx_of_not_last hlast])
      rw [absorbByte_lane]
      omega

/-- Bytes that pass at most one chunk's end change the current word and the next, which follows word N - 1 by word 0. -/
theorem getWord_absorbAll_two_chunks (bs : List Byte) {s : State} (hlen : s.lane + bs.length ≤ 16) {i : Nat}
    (hi : i ≠ s.widx.toNat) (hnext : i ≠ (s.widx.toNat + 1) % wordCount s.ds) :
    getWord (absorbAll bs s).w i = getWord s.w i := by
  induction bs generalizing s with
  | nil => rfl
  | cons b bs ih =>
    rw [List.length_cons] at hlen
    rw [absorbAll_cons, ← getWord_absorbByte_of_ne b hi]
    by_cases hlast : s.lane = 7
    case pos =>
      refine getWord_absorbAll_within_chunk bs ?_ (by rwa [absorbByte_widx_of_last hlast])
      rw [absorbByte_lane]
      omega
    case neg =>
      have hlt := lane_lt s
      refine ih ?_ ?_ ?_
      · rw [absorbByte_lane]
        omega
      · rwa [absorbByte_widx_of_not_last hlast]
      · rwa [absorbByte_widx_of_not_last hlast, absorbByte_ds]

/-- Settles O29: at most 8 bytes, from any lane, pass at most one chunk's end. -/
theorem absorbFrame : Obligations.AbsorbFrame := by
  intro s bytes ha hlen _
  obtain ⟨_, hconfig, houtputs, _, hport⟩ := absorbAll_frame bytes s
  have hlane := lane_lt s
  exact ⟨_, ha.exec_absorb bytes, rfl, absorbAll_totalLen bytes s,
    fun i hi hnext => getWord_absorbAll_two_chunks bytes (by omega) hi hnext,
    fun hfits i hi => getWord_absorbAll_within_chunk bytes hfits hi, hconfig, houtputs, hport⟩

/-! ### Where the counters wrap -/

/-- An index whose low 64 bits are all ones: the multiplier is 0 and only the rotation is left. -/
theorem noiseStep_of_allOnes (acc : Word) (b : Byte) {index : Nat} (h : index % 2 ^ 64 = 2 ^ 64 - 1) :
    noiseStep acc b index = rotl acc 7 := by
  rw [← noiseStep_mod, h, noiseStep]
  simp [noiseByteRot]

theorem placeByte_seven (b : Byte) : placeByte b 7 = b.setWidth 64 := by simp [placeByte]

/-- Settles O34: no check of ABSORB looks at a counter, and a byte whose multiplier is 0 goes into lane 7. -/
theorem lengthWrapsSilently : Obligations.LengthWrapsSilently := by
  intro s b ha hwidx
  refine ⟨_, ha.exec_absorb [b], rfl, rfl, fun hones => ?_, fun hones => ?_⟩
  · rw [enterAbsorbing_totalLen, absorbAll_totalLen, hones, List.length_singleton]
    decide
  · have hlow : s.totalLen.toNat % 2 ^ 64 = 2 ^ 64 - 1 := by
      rw [← BitVec.toNat_setWidth, hones, BitVec.toNat_allOnes]
    have hlane : s.lane = 7 := by
      rw [State.lane]
      omega
    rw [absorbAll_cons, absorbAll_nil, enterAbsorbing_nacc, enterAbsorbing_w]
    refine ⟨?_, ?_⟩
    · rw [absorbByte_nacc, noiseStep_of_allOnes _ _ hlow]
    · rw [getWord_absorbByte_widx hwidx, hlane, placeByte_seven]

end Sys2Proof.Machine
end

section
/-! PROOF. The registers after any ABSORBs as functions of the message (44_command_absorb.md R152): what one more byte
does to each function, and so to the registers. -/

namespace Sys2Proof.Machine

/-! ### One more byte of a message, chunk by chunk -/

theorem chunk_append_of_le {m : List Byte} {j : Nat} (h : 8 * j + 8 ≤ m.length) (bs : List Byte) :
    chunk (m ++ bs) j = chunk m j := by
  have hfull : 8 ≤ (m.drop (8 * j)).length := by
    rw [List.length_drop]
    omega
  rw [chunk, List.drop_append_of_le_length (by omega), List.take_append_of_le_length hfull, chunk]

theorem chunk_of_length_le {m : List Byte} {j : Nat} (h : m.length ≤ 8 * j) : chunk m j = [] := by
  rw [chunk, List.drop_eq_nil_of_le h, List.take_nil]

theorem messageTail_length (m : List Byte) : (messageTail m).length = m.length % 8 := by
  rw [messageTail, List.length_drop]
  omega

theorem messageTail_length_lt (m : List Byte) : (messageTail m).length < 8 := by
  rw [messageTail_length]
  omega

/-- The chunk that the next byte goes into holds the message's tail so far. -/
theorem chunk_next (m : List Byte) : chunk m (m.length / 8) = messageTail m := by
  have hstart : 8 * (m.length / 8) = m.length - m.length % 8 := by omega
  rw [chunk, hstart]
  exact List.take_of_length_le (messageTail_length_lt m).le

theorem chunk_concat_next (m : List Byte) (b : Byte) : chunk (m ++ [b]) (m.length / 8) = messageTail m ++ [b] := by
  have hstart : 8 * (m.length / 8) = m.length - m.length % 8 := by omega
  rw [chunk, hstart, List.drop_append_of_le_length (by omega)]
  refine List.take_of_length_le ?_
  rw [List.length_append, List.length_drop, List.length_singleton]
  omega

/-- A byte in lane 7 completes its chunk, and no tail is left. -/
theorem messageTail_concat_of_last {m : List Byte} (hlast : m.length % 8 = 7) (b : Byte) :
    messageTail (m ++ [b]) = [] := by
  refine List.eq_nil_of_length_eq_zero ?_
  rw [messageTail_length, List.length_append, List.length_singleton]
  omega

theorem messageTail_concat_of_not_last {m : List Byte} (hlast : m.length % 8 ≠ 7) (b : Byte) :
    messageTail (m ++ [b]) = messageTail m ++ [b] := by
  have hsame : (m ++ [b]).length / 8 = m.length / 8 := by
    rw [List.length_append, List.length_singleton]
    omega
  rw [← chunk_next, hsame, chunk_concat_next]

/-! ### One more byte of a chunk as a word -/

theorem packLanes_concat (k : Nat) (bs : List Byte) (b : Byte) :
    packLanes k (bs ++ [b]) = packLanes k bs ||| placeByte b (k + bs.length) := by
  induction bs generalizing k with
  | nil => simp [packLanes]
  | cons c bs ih =>
    have hlane : k + 1 + bs.length = k + (bs.length + 1) := by omega
    rw [List.cons_append, packLanes, ih, packLanes, BitVec.or_assoc, List.length_cons, hlane]

theorem leftAligned_concat_or (bs : List Byte) (b : Byte) :
    leftAligned (bs ++ [b]) = leftAligned bs ||| placeByte b bs.length := by
  rw [leftAligned, packLanes_concat, Nat.zero_add, leftAligned]

/-- The lane that the next byte goes into is still 0, so there OR and XOR are the same. -/
theorem leftAligned_concat_xor {bs : List Byte} (h : bs.length < 8) (b : Byte) :
    leftAligned (bs ++ [b]) = leftAligned bs ^^^ placeByte b bs.length := by
  have hempty : laneByte (leftAligned bs) bs.length = 0 := by
    rw [laneByte_leftAligned h.le h, List.getD_eq_default _ _ le_rfl]
  rw [leftAligned_concat_or]
  refine word_ext_lanes fun k hk => ?_
  rw [laneByte_or, laneByte_xor, laneByte_placeByte b hk h]
  by_cases hlane : k = bs.length
  case pos => simp [hlane, hempty]
  case neg => simp [hlane]

/-! ### One more byte in `X(M)` -/

/-- `X(M)[i]` with the chunks below `c` in place of all the chunks of the message (44_command_absorb.md R152). -/
def chunkXorBelow (c n : Nat) (m : List Byte) (i : Nat) : Word :=
  ((List.range c).filter (fun j => j % n = i)).foldl (fun a j => a ^^^ leftAligned (chunk m j)) 0

theorem chunkXorBelow_succ (c n : Nat) (m : List Byte) (i : Nat) :
    chunkXorBelow (c + 1) n m i = chunkXorBelow c n m i ^^^ if c % n = i then leftAligned (chunk m c) else 0 := by
  rw [chunkXorBelow, List.range_succ, List.filter_append, List.foldl_append]
  by_cases h : c % n = i
  case pos => simp [h, chunkXorBelow]
  case neg => simp [h, chunkXorBelow]

theorem chunkXorBelow_congr {c : Nat} (n : Nat) {m m' : List Byte} (h : ∀ j, j < c → chunk m j = chunk m' j)
    (i : Nat) : chunkXorBelow c n m i = chunkXorBelow c n m' i := by
  induction c with
  | zero => rfl
  | succ c ih => rw [chunkXorBelow_succ, chunkXorBelow_succ, ih fun j hj => h j (by omega), h c (by omega)]

/-- Chunks past the message's end are empty and add nothing. -/
theorem chunkXor_eq_below {m : List Byte} {c : Nat} (h : chunkCount m ≤ c) (n i : Nat) :
    chunkXor n m i = chunkXorBelow c n m i := by
  induction c, h using Nat.le_induction with
  | base => rfl
  | succ c hc ih =>
    have hend : m.length ≤ 8 * c := by
      unfold chunkCount at hc
      omega
    have hempty : leftAligned [] = 0 := rfl
    rw [chunkXorBelow_succ, chunk_of_length_le hend, hempty, ite_self, ih]
    exact BitVec.xor_zero.symm

/-- One more byte changes only the sum of the word its chunk goes to, by that byte in its lane. -/
theorem chunkXor_concat (n : Nat) (m : List Byte) (b : Byte) (i : Nat) :
    chunkXor n (m ++ [b]) i =
      chunkXor n m i ^^^ if m.length / 8 % n = i then placeByte b (m.length % 8) else 0 := by
  have hold : chunkCount m ≤ m.length / 8 + 1 := by
    unfold chunkCount
    omega
  have hnew : chunkCount (m ++ [b]) ≤ m.length / 8 + 1 := by
    rw [chunkCount, List.length_append, List.length_singleton]
    omega
  have hbefore : chunkXorBelow (m.length / 8) n (m ++ [b]) i = chunkXorBelow (m.length / 8) n m i :=
    chunkXorBelow_congr n (fun j hj => chunk_append_of_le (by omega) [b]) i
  rw [chunkXor_eq_below hold, chunkXor_eq_below hnew, chunkXorBelow_succ, chunkXorBelow_succ, hbefore, chunk_next,
    chunk_concat_next, leftAligned_concat_xor (messageTail_length_lt m), messageTail_length]
  split
  case isTrue => rw [BitVec.xor_assoc]
  case isFalse => simp

/-! ### The registers follow the message -/

/-- The counter wraps at a multiple of 8, so the lane is that of the message's length, however long it is. -/
theorem Tracks.lane {m : List Byte} {s : State} (h : Tracks m s) : s.lane = m.length % 8 := by
  rw [State.lane, h.totalLen, BitVec.toNat_ofNat]
  omega

theorem Tracks.widx_toNat {m : List Byte} {s : State} (h : Tracks m s) :
    s.widx.toNat = m.length / 8 % wordCount s.ds := by
  have hlt := Nat.mod_lt (m.length / 8) (wordCount_pos s.ds)
  have h40 := wordCount_le s.ds
  rw [h.widx, BitVec.toNat_ofNat, Nat.mod_eq_of_lt (by omega)]

theorem Tracks.widx_absorbByte {m : List Byte} {s : State} (h : Tracks m s) (b : Byte) :
    (absorbByte s b).widx = BitVec.ofNat 6 ((m ++ [b]).length / 8 % wordCount s.ds) := by
  rw [List.length_append, List.length_singleton]
  by_cases hlast : m.length % 8 = 7
  case pos =>
    have hnext : (m.length + 1) / 8 = m.length / 8 + 1 := by omega
    rw [absorbByte_widx, if_pos (h.lane.trans hlast), nextWidx, h.widx_toNat, State.wordsInUse, Nat.mod_add_mod, hnext]
  case neg =>
    have hsame : (m.length + 1) / 8 = m.length / 8 := by omega
    rw [absorbByte_widx_of_not_last (h.lane ▸ hlast), h.widx, hsame]

theorem Tracks.tail_absorbByte {m : List Byte} {s : State} (h : Tracks m s) (b : Byte) :
    (absorbByte s b).tail = leftAligned (messageTail (m ++ [b])) := by
  by_cases hlast : m.length % 8 = 7
  case pos =>
    rw [absorbByte_tail_of_last (h.lane.trans hlast), messageTail_concat_of_last hlast]
    rfl
  case neg =>
    rw [absorbByte_tail_of_not_last (h.lane ▸ hlast), messageTail_concat_of_not_last hlast,
      leftAligned_concat_or, h.tail, h.lane, messageTail_length]

/-- The multiplier looks at the low 64 bits of the index, which the counter's wrap leaves alone. -/
theorem Tracks.nacc_absorbByte {m : List Byte} {s : State} (h : Tracks m s) (b : Byte) :
    (absorbByte s b).nacc = noiseAcc (m ++ [b]) s.seed := by
  have hindex : m.length % 2 ^ 128 % 2 ^ 64 = m.length % 2 ^ 64 := by omega
  rw [absorbByte_nacc, noiseAcc_concat, h.nacc, h.totalLen, BitVec.toNat_ofNat, ← noiseStep_mod, hindex,
    noiseStep_mod]

theorem Tracks.getWord_absorbByte {m : List Byte} {s : State} (h : Tracks m s) (b : Byte) {i : Nat}
    (hi : i < wordCount s.ds) :
    getWord (absorbByte s b).w i = iv s.ds i ^^^ chunkXor (wordCount s.ds) (m ++ [b]) i := by
  rw [chunkXor_concat, ← BitVec.xor_assoc, ← h.words i hi, ← h.widx_toNat, ← h.lane]
  by_cases hword : s.widx.toNat = i
  case pos =>
    subst hword
    rw [if_pos rfl, getWord_absorbByte_widx hi]
  case neg =>
    rw [if_neg hword, getWord_absorbByte_of_ne b (Ne.symm hword)]
    exact BitVec.xor_zero.symm

/-- One byte moves the registers on from a message to the message with that byte. -/
theorem tracks_absorbByte {m : List Byte} {s : State} (h : Tracks m s) (b : Byte) :
    Tracks (m ++ [b]) (absorbByte s b) where
  words _ hi := h.getWord_absorbByte b hi
  totalLen := by
    rw [absorbByte_totalLen, h.totalLen, List.length_append, BitVec.ofNat_add]
    rfl
  widx := h.widx_absorbByte b
  tail := h.tail_absorbByte b
  nacc := h.nacc_absorbByte b

theorem tracks_absorbAll {m : List Byte} {s : State} (h : Tracks m s) (bs : List Byte) :
    Tracks (m ++ bs) (absorbAll bs s) := by
  induction bs generalizing m s with
  | nil => rwa [List.append_nil, absorbAll_nil]
  | cons b bs ih =>
    rw [List.append_cons, absorbAll_cons]
    exact ih (tracks_absorbByte h b)

/-- No function of the message looks at `STATE`. -/
theorem tracks_enterAbsorbing {m : List Byte} {s : State} (h : Tracks m s) : Tracks m (enterAbsorbing s) :=
  ⟨h.words, h.totalLen, h.widx, h.tail, h.nacc⟩

theorem absorbAll_seed (bs : List Byte) (s : State) : (absorbAll bs s).seed = s.seed := by
  obtain ⟨_, ⟨_, _, hkeyEn, hkey⟩, _⟩ := absorbAll_frame bs s
  rw [State.seed, hkeyEn, hkey, State.seed]

theorem absorbAll_ds (bs : List Byte) (s : State) : (absorbAll bs s).ds = s.ds := by
  obtain ⟨_, ⟨_, hds, _⟩, _⟩ := absorbAll_frame bs s
  exact hds

/-- Settles O33: `FRESH` tracks the empty message, and each byte moves the registers on. The bound on the length is not
needed: past it `TOTAL_LEN` is the length modulo 2^128, from which the lane and the noise multiplier come out the same. -/
theorem absorbedRegistersTrackMessage : Obligations.AbsorbedRegistersTrackMessage := by
  intro s bss hinv hfresh _
  have hstart : Tracks [] s := hinv.tracks_nil hfresh
  by_cases hne : bss = []
  case pos =>
    subst hne
    exact ⟨s, rfl, rfl, rfl, hstart⟩
  case neg =>
    have ha : AcceptsMessage s := ⟨hinv.configured (.inl hfresh), .inl hfresh⟩
    have hend : Tracks bss.flatten (enterAbsorbing (absorbAll bss.flatten s)) :=
      tracks_enterAbsorbing (tracks_absorbAll hstart bss.flatten)
    exact ⟨_, ha.execAll_absorbs hne, absorbAll_ds _ s, absorbAll_seed _ s, hend⟩

end Sys2Proof.Machine
end

section
/-! PROOF. The padding rule and the padded tail (45_command_finalize.md R170, R177). -/

namespace Sys2Proof.Machine

/-! ### `pad` -/

theorem bitLength_eq (l : BitVec 128) : bitLength l = BitVec.ofNat 128 (8 * l.toNat) := by
  rw [← bitLength_ofNat, BitVec.ofNat_toNat, BitVec.setWidth_eq]

/-- The zero fill ends the `0x80` byte's group of 8. -/
theorem padZeros_fills (len : Nat) : (len + 1 + padZeros len) % 8 = 0 := by
  unfold padZeros
  omega

theorem padZeros_le {len z : Nat} (h : (len + 1 + z) % 8 = 0) : padZeros len ≤ z := by
  unfold padZeros
  omega

theorem pad_length (data : List Byte) (l : BitVec 128) :
    (pad data l).length = data.length + 1 + padZeros data.length + 16 := by
  simp only [pad, List.length_append, List.length_singleton, List.length_replicate, be128_length]

/-- Settles O46: the fill is `7 - len mod 8`, and the 16 bytes of the length keep the multiple of 8. -/
theorem padRule : Obligations.PadRule := by
  intro data l
  have hfill := padZeros_fills data.length
  rw [pad_length]
  refine ⟨⟨padZeros data.length, ?_, hfill, fun _ => padZeros_le⟩, by omega, by omega⟩
  rw [pad, bitLength_eq]
  rfl

/-! ### The bytes of `PT` -/

theorem ptBytes_append (x : Word) (y : BitVec 128) : ptBytes (x ++ y) = be64 x ++ be128 y := by
  have hsplit : List.range 24 = List.range 8 ++ (List.range 16).map (8 + ·) := List.range_add (n := 8) (m := 16)
  have hhigh : ∀ k ∈ List.range 8, (x ++ y).extractLsb' (184 - 8 * k) 8 = laneByte x k := fun k hk => by
    have hlane : k < 8 := List.mem_range.mp hk
    have hstart : 184 - 8 * k - 128 = 56 - 8 * k := by omega
    rw [BitVec.extractLsb'_append_eq_of_le (by omega), hstart, laneByte]
  have hlow : ∀ k ∈ List.range 16, (x ++ y).extractLsb' (184 - 8 * (8 + k)) 8 = y.extractLsb' (120 - 8 * k) 8 :=
    fun k hk => by
      have hbyte : k < 16 := List.mem_range.mp hk
      have hstart : 184 - 8 * (8 + k) = 120 - 8 * k := by omega
      rw [hstart, BitVec.extractLsb'_append_eq_of_add_le (by omega)]
  rw [ptBytes, hsplit, List.map_append, List.map_map, List.map_congr_left hhigh, be64, be128,
    ← List.map_congr_left hlow]
  rfl

/-- A left-aligned chunk, byte by byte: its bytes and zeros. -/
theorem be64_leftAligned {bs : List Byte} (h : bs.length ≤ 8) :
    be64 (leftAligned bs) = bs ++ List.replicate (8 - bs.length) 0 := by
  refine List.ext_getElem (by simp; omega) fun k hk _ => ?_
  have hlane : k < 8 := by simpa using hk
  simp only [be64, List.getElem_map, List.getElem_range, laneByte_leftAligned h hlane, List.getElem_append]
  split
  case isTrue hin => exact List.getD_eq_getElem _ _ hin
  case isFalse hout => rw [List.getElem_replicate, List.getD_eq_default _ _ (Nat.le_of_not_lt hout)]

/-- A word whose lanes from `t` on are 0 is its first `t` bytes, left-aligned. -/
theorem leftAligned_take_be64 {x : Word} {t : Nat} (h : ∀ k, t ≤ k → k < 8 → laneByte x k = 0) :
    leftAligned ((be64 x).take t) = x := by
  refine word_ext_lanes fun k hk => ?_
  rw [laneByte_leftAligned (by simp) hk]
  by_cases hin : k < t
  case pos => simp [be64, List.getD_eq_getElem?_getD, hin, hk]
  case neg => simp [be64, List.getD_eq_getElem?_getD, hin, h k (Nat.le_of_not_lt hin) hk]

/-- `TAIL` holds the short last chunk, and the `0x80` goes into the lane after it: `PT` is `pad` of that chunk. -/
theorem ptBytes_paddedTail_leftAligned {bs : List Byte} {l : BitVec 128} (h : l.toNat % 8 = bs.length) :
    ptBytes (paddedTail (leftAligned bs) l) = pad bs l := by
  have hlt : bs.length < 8 := h ▸ Nat.mod_lt _ (by decide)
  have hlen : (bs ++ [padByte]).length = bs.length + 1 := List.length_append
  have hzeros : 8 - (bs.length + 1) = padZeros bs.length := by
    unfold padZeros
    omega
  rw [paddedTail, h, ← leftAligned_concat_or, ptBytes_append, be64_leftAligned (by omega), hlen, hzeros, pad]

/-- Settles O45: `TAIL` is its first `t` bytes left-aligned, of which the padded tail is `pad`. -/
theorem paddedTailLayout : Obligations.PaddedTailLayout := by
  intro tail l hzero
  have hlen : ((be64 tail).take (l.toNat % 8)).length = l.toNat % 8 := by
    rw [List.length_take, be64_length]
    omega
  have hpad : ptBytes (paddedTail tail l) = pad ((be64 tail).take (l.toNat % 8)) l := by
    have hpt := ptBytes_paddedTail_leftAligned hlen.symm
    rwa [leftAligned_take_be64 hzero] at hpt
  refine ⟨?_, hpad⟩
  rw [hpad, pad, hlen, padZeros, Nat.mod_mod]
  rfl

end Sys2Proof.Machine
end

section
/-! PROOF. FINALIZE in every `STATE` (45_command_finalize.md R165, R175), and that nothing stops the machine (R178). -/

namespace Sys2Proof.Machine

/-! ### The other registers that FINALIZE leaves -/

@[simp] theorem finalizeSteps_nacc (s : State) : (finalizeSteps s).nacc = s.nacc := by
  obtain ⟨_, _, heq⟩ := finalizeSteps_eq s
  rw [heq]

@[simp] theorem finalizeSteps_pt (s : State) : (finalizeSteps s).pt = paddedTail s.tail s.totalLen := by
  obtain ⟨_, _, heq⟩ := finalizeSteps_eq s
  rw [heq]

@[simp] theorem finalizeSteps_tacc (s : State) :
    (finalizeSteps s).tacc = noiseAcc (ptBytes (paddedTail s.tail s.totalLen)) s.seed := by
  obtain ⟨_, _, heq⟩ := finalizeSteps_eq s
  rw [heq]

/-! ### The frame of FINALIZE -/

theorem sameWordsFrom_finalizeSteps (s : State) : SameWordsFrom (wordCount s.ds) s (finalizeSteps s) := by
  intro i hn _
  rw [finalizeSteps_w, getWord_finalWords_of_ge s hn]

theorem finalizeSteps_sameConfig (s : State) : SameConfig s (finalizeSteps s) := by simp [SameConfig]

theorem finalizeSteps_sameMessage (s : State) : SameMessage s (finalizeSteps s) := by simp [SameMessage]

/-! ### FINALIZE in every `STATE` -/

/-- The words FINALIZE leaves, over the tail noise it leaves in `TACC`. -/
theorem finalizeSteps_w_eq_rounds (s : State) :
    (finalizeSteps s).w =
      arxRounds (wordCount s.ds)
        (xorWord (arxRounds (wordCount s.ds) s.w (mainConstants s)) 0
          ((s.totalLen <<< 3).setWidth 64 ^^^ 0x0000000000000080#64))
        (extraConstants s (finalizeSteps s).tacc) := by
  rw [finalizeSteps_w, finalizeSteps_tacc, finalWords, lengthMixWord, bitLength]
  rfl

/-- Settles O43: the steps of FINALIZE register by register, its checks in turn, and the decoder's list of illegal words. -/
theorem finalizeResult : Obligations.FinalizeResult := by
  refine ⟨fun s ha => ⟨_, ha.exec_finalize, ?_⟩, fun _ => execFinalize_of_fault, fun _ => execFinalize_of_notConfigured,
    fun _ hc hf => execFinalize_of_finalized hf hc, fun _ hop harg => ?_⟩
  · refine ⟨by simp, by simp, by simp, by simp, fun i _ => ?_, by simp, sameWordsFrom_finalizeSteps s,
      finalizeSteps_sameConfig s, finalizeSteps_sameMessage s, by simp, finalizeSteps_samePort s⟩
    rw [← finalizeSteps_w_eq_rounds]
  · exact decode_eq_illegalField_iff.mpr (.inr (.inr ⟨.inl hop, harg⟩))

/-- Settles O47: `FINALIZED` is configured, so each command meets the check that R175 names, or goes through
`EnterFresh`. -/
theorem finalizeIdempotent : Obligations.FinalizeIdempotent := by
  intro s h hf
  have hc : s.cfgValid = true := h.configured (.inr (.inr hf))
  refine ⟨execFinalize_of_finalized hf hc, fun bs => ⟨_, execAbsorb_of_finalized bs hf hc, ?_⟩,
    ⟨_, execReset_of_configured hc, acceptsMessage_enterFresh hc⟩,
    fun ds e k => ⟨_, rfl, acceptsMessage_enterFresh (configure_cfgValid ds e k s)⟩⟩
  exact ⟨raiseFault_fsm _ s, raiseFault_faultCause _ s, raiseFault_digest _ s, raiseFault_digestValid _ s⟩

/-! ### Totality -/

theorem step_answers_next (s : State) : ∃ t, step s = .next t := by
  cases hedge : clockEdge s with
  | stay t => exact ⟨t, by simp only [step, hedge]⟩
  | run w u =>
    obtain ⟨t, hx⟩ := execute_answers_next w u
    exact ⟨t, by simp only [step, hedge, hx]⟩

/-- Settles O10: an edge resets the core, or changes the port alone, or executes one word, and each has an outcome. -/
theorem everyStepAnswersNext : Obligations.EveryStepAnswersNext := ⟨step_answers_next, exec_answers_next⟩

end Sys2Proof.Machine
end

section
/-! PROOF. A whole message: INIT or RESET, ABSORBs in any split, FINALIZE (45_command_finalize.md R176, R178). -/

namespace Sys2Proof.Machine

/-! ### The length of a digest -/

/-- Settles O49: OUTLEN / 8 words of 8 bytes. -/
theorem digestHasFixedLength : Obligations.DigestHasFixedLength := by
  intro ds key m
  have hwords := outLen_eq_eight_mul ds
  rw [digestOf, List.length_flatMap]
  simp only [be64_length, List.map_const', List.length_range, List.sum_replicate, smul_eq_mul]
  omega

/-! ### FINALIZE of a tracked message -/

/-- The tail block of the closed form is `pad` of the message's short last chunk. -/
theorem pad_messageTail (m : List Byte) : pad (messageTail m) (BitVec.ofNat 128 m.length) = tailBlock m := by
  rw [pad, padZeros, messageTail_length, Nat.mod_mod, bitLength_ofNat, tailBlock]

theorem Tracks.ptBytes_paddedTail {m : List Byte} {s : State} (h : Tracks m s) :
    ptBytes (paddedTail s.tail s.totalLen) = tailBlock m := by
  have hlane : s.totalLen.toNat % 8 = (messageTail m).length := h.lane.trans (messageTail_length m).symm
  rw [h.tail, ptBytes_paddedTail_leftAligned hlane, h.totalLen, pad_messageTail]

/-- The core stands in `FINALIZED` with the digest of `m` on its port, the rest of the port 0 (45_command_finalize.md
R174, R176). -/
def ShowsDigest (ds : DigestSize) (key : Option Word) (m : List Byte) (t : State) : Prop :=
  t.fsm = .finalized ∧ t.digestValid = true ∧ digestBytes t (outLen ds) = digestOf ds key m ∧
    ∀ k, outLen ds ≤ k → k < 64 → digestByte t.digest k = 0

theorem Tracks.showsDigest_finalizeSteps {m : List Byte} {s : State} (h : Tracks m s) :
    ShowsDigest s.ds s.keyOption m (finalizeSteps s) := by
  have hdigest := h.digest_finalizeSteps h.ptBytes_paddedTail
  refine ⟨finalizeSteps_fsm s, finalizeSteps_digestValid s, digestBytes_eq_digestOf hdigest, fun k hlow hk => ?_⟩
  rw [hdigest, digestByte_squeeze _ _ hk, if_neg (Nat.not_lt.mpr hlow)]

/-! ### From `EnterFresh` to the digest -/

theorem execAll_append_of_next {is : List Instr} {s t : State} (h : execAll is s = .next t) (js : List Instr) :
    execAll (is ++ js) s = execAll js t := by
  induction is generalizing s with
  | nil =>
    obtain rfl := Host.Outcome.next.inj h
    rfl
  | cons i is ih =>
    obtain ⟨u, hu⟩ := exec_answers_next i s
    simp only [execAll, hu] at h
    simp only [List.cons_append, execAll, hu]
    exact ih h

theorem execAll_singleton_of_next {i : Instr} {s t : State} (h : exec i s = .next t) : execAll [i] s = .next t := by
  simp only [execAll, h]

/-- A sequence of ABSORBs moves the registers on from a message to the message with all of their bytes. -/
theorem AcceptsMessage.execAll_absorbs_tracks {s : State} (ha : AcceptsMessage s) {m : List Byte} (h : Tracks m s)
    (bss : List (List Byte)) :
    ∃ t, execAll (bss.map .absorb) s = .next t ∧ AcceptsMessage t ∧ SameConfig s t ∧ Tracks (m ++ bss.flatten) t := by
  by_cases hne : bss = []
  case pos =>
    subst hne
    exact ⟨s, rfl, ha, ⟨rfl, rfl, rfl, rfl⟩, by simpa using h⟩
  case neg =>
    obtain ⟨_, hconfig, _⟩ := absorbAll_frame bss.flatten s
    exact ⟨_, ha.execAll_absorbs hne, acceptsMessage_enterAbsorbing (acceptsMessage_absorbAll ha _).1,
      by simpa [SameConfig] using hconfig, tracks_enterAbsorbing (tracks_absorbAll h _)⟩

/-- `EnterFresh` starts the message, whatever state it is run in. -/
theorem tracks_enterFresh (s : State) : Tracks [] (enterFresh s) where
  words i hi := by
    rw [enterFresh_ds] at hi ⊢
    rw [getWord_enterFresh_of_lt hi]
    exact BitVec.xor_zero.symm
  totalLen := by simp
  widx := by simp
  tail := by rw [enterFresh_tail]; rfl
  nacc := by simp

theorem SameConfig.trans {s t u : State} (hst : SameConfig s t) (htu : SameConfig t u) : SameConfig s u := by
  obtain ⟨hcfg, hds, hkeyEn, hkey⟩ := hst
  obtain ⟨hcfg', hds', hkeyEn', hkey'⟩ := htu
  exact ⟨hcfg'.trans hcfg, hds'.trans hds, hkeyEn'.trans hkeyEn, hkey'.trans hkey⟩

/-- A configured core's message from `EnterFresh` on, in any split. -/
theorem execAll_message_enterFresh {s : State} (hc : s.cfgValid = true) (bss : List (List Byte)) :
    ∃ t, execAll (bss.map .absorb ++ [.finalize]) (enterFresh s) = .next t ∧
      ShowsDigest s.ds s.keyOption bss.flatten t := by
  obtain ⟨u, habsorbs, ha, hsame, htracks⟩ :=
    (acceptsMessage_enterFresh hc).execAll_absorbs_tracks (tracks_enterFresh s) bss
  have hconfig : SameConfig s u := (enterFresh_sameConfig s).trans hsame
  have hkey : u.keyOption = s.keyOption := keyOption_of_sameConfig hconfig
  obtain ⟨_, hds, _⟩ := hconfig
  have hshows := htracks.showsDigest_finalizeSteps
  rw [hds, hkey, List.nil_append] at hshows
  exact ⟨_, (execAll_append_of_next habsorbs _).trans (execAll_singleton_of_next ha.exec_finalize), hshows⟩

/-- INIT is `EnterFresh` on the size and the optional key it names. -/
theorem exec_initCommand_keyed (ds : DigestSize) (key : Option Word) (s : State) :
    ∃ e k, exec (initCommand ds key) s = .next (enterFresh (configure ds e k s)) ∧
      (configure ds e k s).keyOption = key := by
  cases key with
  | none => exact ⟨false, 0, rfl, rfl⟩
  | some k => exact ⟨true, k, rfl, rfl⟩

/-- Settles O48: INIT and RESET are `EnterFresh`, from which the registers track the bytes absorbed, and FINALIZE presents
the digest of the message tracked. The bound on the length is not needed: past it the closed form's bit length wraps as
`TOTAL_LEN` does. -/
theorem digestOfEverySplit : Obligations.DigestOfEverySplit := by
  refine ⟨fun s ds key bss _ => ?_, fun s bss hc _ => ?_⟩
  · obtain ⟨e, k, hinit, hkey⟩ := exec_initCommand_keyed ds key s
    have hmessage := execAll_message_enterFresh (configure_cfgValid ds e k s) bss
    rw [configure_ds, hkey] at hmessage
    simpa only [execAll, hinit, ShowsDigest] using hmessage
  · have hreset : exec .reset s = .next (enterFresh s) := execReset_of_configured hc
    have hmessage := execAll_message_enterFresh hc bss
    simpa only [execAll, hreset, ShowsDigest] using hmessage

end Sys2Proof.Machine
end

section
/-! PROOF. The constant-time comparison of 46_cteq_helper.md R191: the accumulator ORs the byte differences, so no later
byte can clear a bit that an earlier one set. -/

namespace Sys2Proof.Machine

/-- The accumulator ends at 0 exactly when it began there and no byte pair differed. -/
theorem ctEqLoop_eq_zero_iff {a b : List Byte} (hlen : a.length = b.length) (acc : Byte) :
    ctEqLoop a b acc = 0#8 ↔ acc = 0#8 ∧ a = b := by
  induction a generalizing b acc with
  | nil =>
    obtain rfl : b = [] := List.eq_nil_of_length_eq_zero hlen.symm
    simp [ctEqLoop]
  | cons x xs ih =>
    cases b with
    | nil => simp at hlen
    | cons y ys =>
      have htail : xs.length = ys.length := Nat.succ.inj hlen
      calc ctEqLoop (x :: xs) (y :: ys) acc = 0#8
        _ ↔ acc ||| (x ^^^ y) = 0#8 ∧ xs = ys := ih htail _
        _ ↔ (acc = 0#8 ∧ x = y) ∧ xs = ys := by rw [BitVec.or_eq_zero_iff, BitVec.xor_eq_zero_iff]
        _ ↔ acc = 0#8 ∧ x :: xs = y :: ys := by rw [and_assoc, List.cons.injEq]

/-- Settles O58: strings of different lengths differ, and for equal lengths the accumulator starts at 0. -/
theorem ctEqIsEquality : Obligations.CtEqIsEquality := by
  intro a b
  by_cases hlen : a.length = b.length
  · simp [ctEq, hlen, ctEqLoop_eq_zero_iff hlen]
  · have hne : a ≠ b := fun h => hlen (congrArg List.length h)
    simp [ctEq, hlen, hne]

end Sys2Proof.Machine
end

section
/-! PROOF. Two runs of the same words (70_reset_and_hazards.md R237): every operation takes states that agree in the
registers in use to states that do, and INIT makes any two states agree. -/

namespace Sys2Proof.Machine

/-! ### What two agreeing states derive from their registers -/

theorem AgreeInUse.fsm_eq {s t : State} : AgreeInUse s t → t.fsm = s.fsm := fun ⟨hfsm, _⟩ => hfsm

theorem AgreeInUse.sameConfig {s t : State} : AgreeInUse s t → SameConfig s t := fun ⟨_, hconfig, _⟩ => hconfig

theorem AgreeInUse.cfgValid_eq {s t : State} (h : AgreeInUse s t) : t.cfgValid = s.cfgValid :=
  have ⟨hcfg, _⟩ := h.sameConfig
  hcfg

theorem AgreeInUse.ds_eq {s t : State} (h : AgreeInUse s t) : t.ds = s.ds :=
  have ⟨_, hds, _⟩ := h.sameConfig
  hds

theorem AgreeInUse.seed_eq {s t : State} (h : AgreeInUse s t) : t.seed = s.seed := by
  obtain ⟨_, _, hkeyEn, hkey⟩ := h.sameConfig
  rw [State.seed, hkeyEn, hkey, State.seed]

theorem AgreeInUse.lane_eq {s t : State} (h : AgreeInUse s t) : t.lane = s.lane := by
  obtain ⟨_, _, ⟨hlen, _⟩, _⟩ := h
  rw [State.lane, hlen, State.lane]

/-- The round constants and the padded tail come from the configuration and the message registers, and the rounds read
words in use only. -/
theorem AgreeInUse.getWord_finalWords {s t : State} (h : AgreeInUse s t) :
    ∀ i, i < wordCount s.ds → getWord (finalWords t) i = getWord (finalWords s) i := by
  have hseed := h.seed_eq
  have hds := h.ds_eq
  obtain ⟨_, _, ⟨hlen, _, htail, hnacc⟩, _, hwords⟩ := h
  have hn := wordCount_pos s.ds
  have h40 := wordCount_le s.ds
  simp only [finalWords, mainConstants, extraConstants, hds, hlen, htail, hnacc, hseed]
  exact arxRounds_congr hn h40 _ fun i hi => getWord_xorWord_congr _ (arxRounds_congr hn h40 _ hwords) hi

/-! ### The operations -/

theorem agreeInUse_raiseFault {s t : State} (h : AgreeInUse s t) (c : Cause) :
    AgreeInUse (raiseFault c s) (raiseFault c t) := by
  obtain ⟨_, hconfig, hmessage, _, hwords⟩ := h
  exact ⟨by simp, by simpa [SameConfig] using hconfig, by simpa [SameMessage] using hmessage, by simp [SameOutputs],
    by simpa using hwords⟩

theorem agreeInUse_enterAbsorbing {s t : State} (h : AgreeInUse s t) :
    AgreeInUse (enterAbsorbing s) (enterAbsorbing t) := by
  obtain ⟨_, hconfig, hmessage, houtputs, hwords⟩ := h
  exact ⟨by simp, by simpa [SameConfig] using hconfig, by simpa [SameMessage] using hmessage,
    by simpa [SameOutputs] using houtputs, by simpa using hwords⟩

/-- One byte goes to the same lane of the same word, and moves `WIDX` on round the same N. -/
theorem agreeInUse_absorbByte {s t : State} (h : AgreeInUse s t) (b : Byte) :
    AgreeInUse (absorbByte s b) (absorbByte t b) := by
  have hlane := h.lane_eq
  have hds := h.ds_eq
  obtain ⟨hfsm, hconfig, ⟨hlen, hwidx, htail, hnacc⟩, houtputs, hwords⟩ := h
  refine ⟨by simpa using hfsm, by simpa [SameConfig] using hconfig,
    by simp [SameMessage, State.wordsInUse, hlane, hlen, hwidx, htail, hnacc, hds],
    by simpa [SameOutputs] using houtputs, fun i hi => ?_⟩
  rw [absorbByte_ds] at hi
  rw [absorbByte_w, absorbByte_w, hlane, hwidx]
  exact getWord_xorWord_congr _ hwords hi

theorem agreeInUse_absorbAll {s t : State} (h : AgreeInUse s t) (bs : List Byte) :
    AgreeInUse (absorbAll bs s) (absorbAll bs t) := by
  induction bs generalizing s t with
  | nil => exact h
  | cons b bs ih => exact ih (agreeInUse_absorbByte h b)

theorem agreeInUse_finalizeSteps {s t : State} (h : AgreeInUse s t) :
    AgreeInUse (finalizeSteps s) (finalizeSteps t) := by
  have hfinal := h.getWord_finalWords
  have hds := h.ds_eq
  obtain ⟨_, hconfig, hmessage, ⟨_, _, hcause⟩, _⟩ := h
  refine ⟨by simp, by simpa [SameConfig] using hconfig, by simpa [SameMessage] using hmessage,
    ⟨?_, by simp, by simpa using hcause⟩, by simpa using hfinal⟩
  rw [finalizeSteps_digest, finalizeSteps_digest, hds]
  exact squeeze_congr hfinal

/-! ### The commands and the words -/

/-- INIT leaves registers that are functions of its operands: two states need not agree before it. -/
theorem agreeInUse_init (ds : DigestSize) (e : Bool) (k : Word) (s t : State) :
    AgreeInUse (enterFresh (configure ds e k s)) (enterFresh (configure ds e k t)) :=
  agreeInUse_enterFresh (by simp [SameConfig])

/-- The checks read `STATE` and `CFG_VALID`, so both states take the same branch of a command. -/
theorem exec_agreeInUse {s s' t : State} (h : AgreeInUse s s') {i : Instr} (hi : exec i s = .next t) :
    ∃ t', exec i s' = .next t' ∧ AgreeInUse t t' := by
  have hfsm := h.fsm_eq
  have hcfg := h.cfgValid_eq
  cases i with
  | init ds e k =>
    rw [execInit_next hi]
    exact ⟨_, rfl, agreeInUse_init ds e k s s'⟩
  | absorb bs =>
    rcases execAbsorb_cases hi with ⟨hf, rfl⟩ | ⟨hf, hc, rfl⟩ | ⟨hn, hc, rfl⟩ | ⟨hf, hn, hc, rfl⟩
    · exact ⟨_, execAbsorb_of_fault bs (hfsm.trans hf), h⟩
    · exact ⟨_, execAbsorb_of_notConfigured bs (hfsm.trans_ne hf) (hcfg.trans hc), agreeInUse_raiseFault h _⟩
    · exact ⟨_, execAbsorb_of_finalized bs (hfsm.trans hn) (hcfg.trans hc), agreeInUse_raiseFault h _⟩
    · exact ⟨_, execAbsorb_of_accepting bs (hfsm.trans_ne hf) (hfsm.trans_ne hn) (hcfg.trans hc),
        agreeInUse_enterAbsorbing (agreeInUse_absorbAll h bs)⟩
  | finalize =>
    rcases execFinalize_cases hi with ⟨hf, rfl⟩ | ⟨hf, hc, rfl⟩ | ⟨hn, hc, rfl⟩ | ⟨hf, hn, hc, rfl⟩
    · exact ⟨_, execFinalize_of_fault (hfsm.trans hf), h⟩
    · exact ⟨_, execFinalize_of_notConfigured (hfsm.trans_ne hf) (hcfg.trans hc), agreeInUse_raiseFault h _⟩
    · exact ⟨_, execFinalize_of_finalized (hfsm.trans hn) (hcfg.trans hc), h⟩
    · exact ⟨_, execFinalize_of_accepting (hfsm.trans_ne hf) (hfsm.trans_ne hn) (hcfg.trans hc),
        agreeInUse_finalizeSteps h⟩
  | reset =>
    rcases execReset_cases hi with ⟨hc, hf, rfl⟩ | ⟨hc, hf, rfl⟩ | ⟨hc, rfl⟩
    · exact ⟨_, execReset_of_fault (hfsm.trans hf) (hcfg.trans hc), h⟩
    · exact ⟨_, execReset_of_notConfigured (hfsm.trans_ne hf) (hcfg.trans hc), agreeInUse_raiseFault h _⟩
    · exact ⟨_, execReset_of_configured (hcfg.trans hc), agreeInUse_enterFresh h.sameConfig⟩

/-- An illegal word is refused in both states, or dropped in both. -/
theorem agreeInUse_refuseIllegal {s t : State} (h : AgreeInUse s t) (c : Cause) :
    AgreeInUse (refuseIllegal c s) (refuseIllegal c t) := by
  have hfsm := h.fsm_eq
  rcases refuseIllegal_cases c s with ⟨hf, hr⟩ | ⟨hf, hr⟩
  · rwa [hr, refuseIllegal, if_pos (hfsm.trans hf)]
  · rw [hr, refuseIllegal, if_neg (hfsm.trans_ne hf)]
    exact agreeInUse_raiseFault h c

theorem execute_agreeInUse {s s' t : State} (h : AgreeInUse s s') {w : CmdWord} (hx : execute w s = .next t) :
    ∃ t', execute w s' = .next t' ∧ AgreeInUse t t' := by
  rcases execute_cases hx with ⟨i, hw, hi⟩ | ⟨c, hw, rfl⟩
  · obtain ⟨t', hi', hagree⟩ := exec_agreeInUse h hi
    exact ⟨t', (execute_of_legal hw s').trans hi', hagree⟩
  · exact ⟨_, execute_of_illegal hw s', agreeInUse_refuseIllegal h c⟩

/-- Any words, legal or not, keep two states in agreement. -/
theorem executeAll_agreeInUse {s s' : State} (h : AgreeInUse s s') (ws : List CmdWord) :
    ∃ t t', executeAll ws s = .next t ∧ executeAll ws s' = .next t' ∧ AgreeInUse t t' := by
  induction ws generalizing s s' with
  | nil => exact ⟨s, s', rfl, rfl, h⟩
  | cons w ws ih =>
    obtain ⟨u, hu⟩ := execute_answers_next w s
    obtain ⟨u', hu', hagree⟩ := execute_agreeInUse h hu
    simpa only [executeAll, hu, hu'] using ih hagree

/-- Settles O55: the INIT makes the two states agree, and the words after it keep them so. -/
theorem noHiddenInputs : Obligations.NoHiddenInputs := by
  intro w ws s s' ds e k hw
  have hinit (r : State) : execute w r = .next (enterFresh (configure ds e k r)) := execute_of_legal hw r
  simpa only [executeAll, hinit] using executeAll_agreeInUse (agreeInUse_init ds e k s s') ws

end Sys2Proof.Machine
end

section
/-! PROOF. The fault entry and its causes, the core in `FAULT` and the ways out (60_exceptions.md R202 to R206). -/

namespace Sys2Proof.Machine

/-! ### The words that enter `FAULT` -/

/-- The checks of 60_exceptions.md R202 that a word can fail, each with the cause it raises. -/
inductive FaultReason (w : CmdWord) (s : State) : Cause → Prop where
  /-- Checks 1 and 2: the encoding. -/
  | illegal {c : Cause} (hw : decode w = .illegal c) : FaultReason w s c
  /-- Check 3: a command other than INIT needs a configuration. -/
  | notConfigured {i : Instr} (hw : decode w = .legal i) (hi : opcodeOf i ∈ [2#4, 3#4, 4#4]) (hc : s.cfgValid = false) :
      FaultReason w s .notConfigured
  /-- Check 4: no message byte after FINALIZE. -/
  | absorbAfterFinalize {bs : List Byte} (hw : decode w = .legal (.absorb bs)) (hf : s.fsm = .finalized) :
      FaultReason w s .absorbAfterFinalize

/-- A word enters `FAULT` only by the fault entry of a check that it fails. -/
theorem execute_enters_fault {w : CmdWord} {s t : State} (hs : s.fsm ≠ .fault) (hx : execute w s = .next t)
    (ht : t.fsm = .fault) : ∃ c, FaultReason w s c ∧ t = raiseFault c s := by
  rcases execute_cases hx with ⟨i, hw, hi⟩ | ⟨c, hw, rfl⟩
  · cases i with
    | init ds e k => simp [execInit_next hi] at ht
    | absorb bs =>
      rcases execAbsorb_cases hi with ⟨hf, rfl⟩ | ⟨_, hc, rfl⟩ | ⟨hn, _, rfl⟩ | ⟨_, _, _, rfl⟩
      · exact absurd hf hs
      · exact ⟨_, .notConfigured hw (by simp [opcodeOf]) hc, rfl⟩
      · exact ⟨_, .absorbAfterFinalize hw hn, rfl⟩
      · simp at ht
    | finalize =>
      rcases execFinalize_cases hi with ⟨hf, rfl⟩ | ⟨_, hc, rfl⟩ | ⟨_, _, rfl⟩ | ⟨_, _, _, rfl⟩
      · exact absurd hf hs
      · exact ⟨_, .notConfigured hw (by simp [opcodeOf]) hc, rfl⟩
      · exact absurd ht hs
      · simp at ht
    | reset =>
      rcases execReset_cases hi with ⟨_, hf, rfl⟩ | ⟨hc, _, rfl⟩ | ⟨_, rfl⟩
      · exact absurd hf hs
      · exact ⟨_, .notConfigured hw (by simp [opcodeOf]) hc, rfl⟩
      · simp at ht
  · rcases refuseIllegal_cases c s with ⟨hf, _⟩ | ⟨_, hr⟩
    · exact absurd hf hs
    · exact ⟨c, .illegal hw, hr⟩

/-- Settles O16: of all that a word can leave, only the fault entry and an unchanged state can be in `FAULT`. -/
theorem faultEntryIsPrecise : Obligations.FaultEntryIsPrecise := by
  intro w s t hx ht
  cases execute_effect hx with
  | unchanged => exact .inl ⟨ht, rfl⟩
  | refused c hf hcause => exact .inr ⟨hf, c, hcause, rfl⟩
  | init ds e k => simp at ht
  | reset => simp at ht
  | absorb bs => simp at ht
  | finalize => simp at ht

/-! ### The causes of each opcode -/

/-- A legal word has its command's opcode (30_encoding.md R77). -/
theorem opField_of_legal {w : CmdWord} {i : Instr} (hw : decode w = .legal i) : opField w = opcodeOf i := by
  cases i with
  | init ds e k => exact (decode_eq_init_iff.mp hw).1
  | absorb bs => exact (decode_eq_absorb_iff.mp hw).1
  | finalize => exact (decode_eq_finalize_iff.mp hw).1
  | reset => exact (decode_eq_reset_iff.mp hw).1

/-- 60_exceptions.md R203: the causes that a word of each opcode can raise. -/
def causesOf (op : BitVec 4) : List Cause :=
  if op = 1 then [.illegalField]
  else if op = 2 then [.illegalField, .notConfigured, .absorbAfterFinalize]
  else if op = 3 ∨ op = 4 then [.illegalField, .notConfigured]
  else [.illegalOpcode]

theorem illegalOpcode_mem_causesOf_iff {op : BitVec 4} :
    .illegalOpcode ∈ causesOf op ↔ op ∉ [1#4, 2#4, 3#4, 4#4] := by
  revert op
  decide

theorem illegalField_mem_causesOf_iff {op : BitVec 4} : .illegalField ∈ causesOf op ↔ op ∈ [1#4, 2#4, 3#4, 4#4] := by
  revert op
  decide

theorem notConfigured_mem_causesOf_iff {op : BitVec 4} : .notConfigured ∈ causesOf op ↔ op ∈ [2#4, 3#4, 4#4] := by
  revert op
  decide

theorem absorbAfterFinalize_mem_causesOf_iff {op : BitVec 4} : .absorbAfterFinalize ∈ causesOf op ↔ op = 2#4 := by
  revert op
  decide

theorem FaultReason.mem_causesOf {w : CmdWord} {s : State} {c : Cause} (h : FaultReason w s c) :
    c ∈ causesOf (opField w) := by
  cases h with
  | illegal hw =>
    rcases decode_illegal_cause hw with rfl | rfl
    · exact illegalOpcode_mem_causesOf_iff.mpr (decode_eq_illegalOpcode_iff.mp hw)
    · refine illegalField_mem_causesOf_iff.mpr (by_contra fun hop => ?_)
      cases hw.symm.trans (decode_eq_illegalOpcode_iff.mpr hop)
  | notConfigured hw hi =>
    rw [opField_of_legal hw]
    exact notConfigured_mem_causesOf_iff.mpr hi
  | absorbAfterFinalize hw => exact absorbAfterFinalize_mem_causesOf_iff.mpr (opField_of_legal hw)

/-- Settles O20: a fault has a reason, the reason's cause is one of the opcode's, and a configured core that takes
message bytes leaves no reason but the encoding. -/
theorem causesByOpcode : Obligations.CausesByOpcode := by
  refine ⟨fun w s t hs hx ht => ?_, fun w s t ha hx ht => ?_⟩
  · obtain ⟨c, hreason, rfl⟩ := execute_enters_fault hs hx ht
    have hmem := hreason.mem_causesOf
    rw [raiseFault_faultCause]
    refine ⟨fun hop => ?_, fun hop => ?_, fun hop => ?_, fun hop => ?_, fun hop => ?_⟩
    · simp only [List.mem_cons, List.not_mem_nil, or_false, not_or] at hop
      simpa [causesOf, hop] using hmem
    all_goals simpa [causesOf, hop] using hmem
  · obtain ⟨c, hreason, -⟩ := execute_enters_fault ha.fsm_ne_fault hx ht
    cases hreason with
    | illegal hw => exact ⟨c, hw⟩
    | notConfigured _ _ hc => exact absurd ha.1 (by simp [hc])
    | absorbAfterFinalize _ hf => exact absurd hf ha.fsm_ne_finalized

/-! ### The core in `FAULT` -/

/-- Everything an accepted word can do in `FAULT` (60_exceptions.md R205, R206). -/
theorem execute_in_fault {w : CmdWord} {s t : State} (hs : s.fsm = .fault) (hx : execute w s = .next t) :
    t = s ∨ (∃ ds e k, decode w = .legal (.init ds e k) ∧ t = enterFresh (configure ds e k s)) ∨
      (decode w = .legal .reset ∧ s.cfgValid = true ∧ t = enterFresh s) := by
  rcases execute_cases hx with ⟨i, hw, hi⟩ | ⟨c, _, rfl⟩
  · cases i with
    | init ds e k => exact .inr (.inl ⟨ds, e, k, hw, execInit_next hi⟩)
    | absorb bs => exact .inl (Host.Outcome.next.inj (hi.symm.trans (execAbsorb_of_fault bs hs)))
    | finalize => exact .inl (Host.Outcome.next.inj (hi.symm.trans (execFinalize_of_fault hs)))
    | reset =>
      rcases execReset_cases hi with ⟨_, _, heq⟩ | ⟨_, hf, _⟩ | ⟨hc, heq⟩
      · exact .inl heq
      · exact absurd hs hf
      · exact .inr (.inr ⟨hw, hc, heq⟩)
  · exact .inl (if_pos hs)

/-- Settles O17, from all that a word can do in `FAULT`. -/
theorem faultStateDropsWords : Obligations.FaultStateDropsWords := by
  refine fun w s hs => ⟨fun hinit hreset => ?_, fun ds e k hw => ?_⟩
  · obtain ⟨t, hx⟩ := execute_answers_next w s
    rcases execute_in_fault hs hx with rfl | ⟨ds, e, k, hw, _⟩ | ⟨hw, hc, _⟩
    · exact hx
    · exact absurd hw (hinit ds e k)
    · cases (hreset hw).symm.trans hc
  · exact ⟨_, execute_of_legal hw s, enterFresh_fsm _, enterFresh_faultCause _⟩

/-- An edge at which a word completes has `rst` = 0 (60_exceptions.md R208). -/
theorem rst_of_clockEdge_run {s u : State} {w : CmdWord} (h : clockEdge s = .run w u) : s.sampled.rst = false := by
  cases hrst : s.sampled.rst with
  | false => rfl
  | true => simp [clockEdge, hrst] at h

/-- Settles O18: an edge without `rst` leaves `FAULT` only by a word that completes at it, through
`EnterFresh`. -/
theorem onlyInitResetOrRstLeaveFault : Obligations.OnlyInitResetOrRstLeaveFault := by
  intro s t hs hstep ht
  rcases step_cases hstep with hstay | ⟨w, u, hrun, hx⟩
  · rcases clockEdge_stay hstay with ⟨hrst, rfl⟩ | ⟨_, f, rfl⟩
    · exact .inl ⟨hrst, hardwareReset_fsm _⟩
    · exact absurd hs ht
  · refine .inr ⟨rst_of_clockEdge_run hrun, w, completing_of_run hrun, ?_⟩
    obtain rfl := clockEdge_run hrun
    have hu : State.fsm { s with inFlight := none, inputs := s.inputs.tail } = .fault := hs
    rcases execute_in_fault hu hx with rfl | ⟨ds, e, k, hw, rfl⟩ | ⟨hw, hc, rfl⟩
    · exact absurd hs ht
    · exact ⟨by simp, by simp, by simp, .inl ⟨ds, e, k, hw, by simp, by simp⟩⟩
    · exact ⟨by simp, by simp, by simp, .inr ⟨hw, hc, enterFresh_sameConfig _⟩⟩

/-! ### The order of the checks -/

/-- Settles O19: the commands make R202's checks in its order, so in each branch both sides are the same outcome. -/
theorem checksInOrder : Obligations.ChecksInOrder := by
  intro w s
  by_cases hs : s.fsm = .fault
  case pos =>
    rw [if_pos hs]
    cases hw : decode w with
    | illegal c => rw [execute_of_illegal hw, refuseIllegal, if_pos hs]
    | legal i =>
      rw [execute_of_legal hw]
      cases i with
      | init ds e k => rfl
      | absorb bs => exact execAbsorb_of_fault bs hs
      | finalize => exact execFinalize_of_fault hs
      | reset =>
        cases hc : s.cfgValid with
        | false => exact execReset_of_fault hs hc
        | true => rfl
  case neg =>
    rw [if_neg hs]
    cases hw : decode w with
    | illegal c => rw [execute_of_illegal hw, refuseIllegal, if_neg hs]
    | legal i =>
      rw [execute_of_legal hw]
      cases i with
      | init ds e k => rfl
      | absorb bs =>
        cases hc : s.cfgValid with
        | false => exact execAbsorb_of_notConfigured bs hs hc
        | true =>
          by_cases hn : s.fsm = .finalized
          · exact (execAbsorb_of_finalized bs hn hc).trans (if_pos hn).symm
          · exact (if_neg hn).symm
      | finalize =>
        cases hc : s.cfgValid with
        | false => exact execFinalize_of_notConfigured hs hc
        | true => rfl
      | reset =>
        cases hc : s.cfgValid with
        | false => exact execReset_of_notConfigured hs hc
        | true => rfl

end Sys2Proof.Machine
end

section
/-! PROOF. The edge with `rst` = 1, and what the latency looks at (70_reset_and_hazards.md R230, R231, R243). -/

namespace Sys2Proof.Machine

/-- An edge whose inputs have `rst` = 1 is a hardware reset, from every state (70_reset_and_hazards.md R230). -/
theorem step_of_rst_input {s : State} {p : PortIn} {rest : List PortIn} (hin : s.inputs = p :: rest)
    (hrst : p.rst = true) : step s = .next (hardwareReset (dropInput s)) :=
  step_of_rst (by rwa [sampled_of_inputs hin])

/-- Settles O1, register by register. -/
theorem hardwareResetFromEveryState : Obligations.HardwareResetFromEveryState := by
  intro s p rest hin hrst
  refine ⟨_, step_of_rst_input hin hrst, ?_⟩
  simp [codeOfSize, State.busy, hin]

/-- Settles O2: each port is a function of registers that a hardware reset clears. -/
theorem outputsAfterResetEdge : Obligations.OutputsAfterResetEdge := by
  intro s p rest hin hrst
  refine ⟨_, step_of_rst_input hin hrst, ?_⟩
  simp [ports, State.busy, causeCode, fsmCode]

/-- Settles O7: the table is read at the opcode, at `DS` and at `STATE`. -/
theorem latencyIndependentOfData : Obligations.LatencyIndependentOfData := by
  intro s t v w hlat hds hfsm hop
  rw [State.latency, hlat, hop, hds, hfsm, State.latency]

end Sys2Proof.Machine
end
